-- ==== Sys2Proof/Word.lean ====
section
/-! DEFINITION. The words of the block, by width: bytes (10_state.md R20), host register words (R32 to R36),
command words (30_encoding.md R72), response words (R75), sequencer keys (R90). Bit 0 is the least
significant bit of every value (00_scope.md R10). -/

namespace Sys2Proof

/-- A byte: CUR, CSUM, a byte of FRAME, TEMP, RH, and the Bus Line's error value, `W_E = 8` bits wide (00_scope.md R6). -/
abbrev Byte := BitVec 8

/-- A host register's word (20_memory.md R50). -/
abbrev HostWord := BitVec 32

/-- A command word `{OP[3:0], N[31:0]}` (30_encoding.md R72). -/
abbrev CmdWord := BitVec 36

/-- A response word `{FAIL, LEVEL, ERR[7:0]}` (30_encoding.md R75). -/
abbrev RspWord := BitVec 10

/-- The key of a sequencer routine, `{SAMPLE_MODE, PHASE[3:0]}` (30_encoding.md R90). -/
abbrev PhaseKey := BitVec 5

end Sys2Proof
end

