-- ==== Sys2Proof/Config.lean ====
section
/-! DEFINITION. The implementation parameters of the block (00_scope.md R6 to R9) and the one free value: what the
Bus Line answers where State holds no answer for it (40_capability_ops.md R108). -/

namespace Sys2Proof

/-- Which of the two bit-recovery strategies the engine uses (00_scope.md R6, `SAMPLE_MODE`). -/
inductive SampleMode where
  | level
  | threshold
  deriving DecidableEq, Repr

/-- The unit of a wait (00_scope.md R7). -/
inductive DelayUnit where
  | us
  | ms
  deriving DecidableEq, Repr

/-- A wait `(unit, n)` (00_scope.md R7). -/
structure Duration where
  unit : DelayUnit
  n : BitVec 32
  deriving DecidableEq, Repr

/-- The configuration record `cfg` of 00_scope.md R6, with the platform's `OWE_BASE` (20_memory.md R50). `W_E` is 8 in
this binding and is the width of `Byte`. Which values are legal is `cfgLegal` in Machine/Operands.lean. -/
structure Cfg where
  sampleMode : SampleMode
  presenceCheck : Bool
  tResetLow : Duration
  tPresenceDelay : Duration
  presencePolls : BitVec 16
  tPresencePoll : Duration
  tPostReset : Duration
  tSlotLow : Duration
  tSettle : Duration
  tRecovery : Duration
  bitPollMax : BitVec 16
  tBitPoll : Duration
  bitThreshold : BitVec 16
  oweBase : Nat
  deriving DecidableEq, Repr

/-- `REFCFG` (00_scope.md R9): placeholder numbers, used by `State.reset` and by tests only. `OWE_BASE` is 0 here
(DESIGN CHOICE, log 2: the spec leaves it open and no rule depends on it). -/
def refCfg : Cfg where
  sampleMode := .level
  presenceCheck := true
  tResetLow := ⟨.ms, 1⟩
  tPresenceDelay := ⟨.us, 20⟩
  presencePolls := 8
  tPresencePoll := ⟨.us, 10⟩
  tPostReset := ⟨.us, 100⟩
  tSlotLow := ⟨.us, 10⟩
  tSettle := ⟨.us, 20⟩
  tRecovery := ⟨.us, 30⟩
  bitPollMax := 16
  tBitPoll := ⟨.us, 5⟩
  bitThreshold := 6
  oweBase := 0

/-- `REFCFG_T` (00_scope.md R9). -/
def refCfgT : Cfg := { refCfg with sampleMode := .threshold }

/-- FREE VALUE (DESIGN CHOICE, log 3): the n-th answer of the Bus Line that State's own list does not give. The
environment is an oracle (40_capability_ops.md R108, 93_implementation_defined.md U12); nothing is known of this. -/
opaque Config.freeBusResponse : Nat → RspWord

end Sys2Proof
end

