-- ==== Sys2Proof/Syntax.lean ====
section
/-! DEFINITION. The syntax: one constructor per row of opcode_table.json (30_encoding.md R90), the three kinds of words
that carry an instruction, and the answers to a command. -/

namespace Sys2Proof

/-- The instructions: five capability commands (R100 to R104), the host command (R165), seven sequencer routines
(R120 to R122, R140, R141, R162, R180). Composite routines have no row (30_encoding.md R88). -/
inductive Instr where
  | driveLow
  | release
  | sample
  /-- `DELAY_US n`. -/
  | delayUs (n : BitVec 32)
  /-- `DELAY_MS n`. -/
  | delayMs (n : BitVec 32)
  /-- START, with the whole word written to CTRL; it is START when bit 0 is 1, and bits 31:1 are ignored (R77, R165). -/
  | start (v : HostWord)
  | reset
  | presence
  | postReset
  | bitReadL
  | bitReadT
  | checksumValidate
  | decode
  deriving DecidableEq, Repr

/-- The three formats of opcode_table.json: `CW`, `HOST`, `PHASE` (30_encoding.md R90). -/
inductive InstrWord where
  | cw (w : CmdWord)
  | host (v : HostWord)
  | phase (k : PhaseKey)
  deriving DecidableEq, Repr

/-- What a response word says of the command it answers (30_encoding.md R75). -/
inductive Answer where
  | ok
  | level (b : Bool)
  | fail (e : Byte)
  deriving DecidableEq, Repr

end Sys2Proof
end

