-- ==== Sys2Proof/WellFormed.lean ====
section
/-! DEFINITION. Well-formed instructions. The one check syntax leaves open: a word written to CTRL is START only when its
bit 0 is 1 (30_encoding.md R77). Every operand of every other constructor is legal (R81: every `N` for the delays). -/

namespace Sys2Proof

/-- The instruction is one its row of the table admits. -/
def Instr.wellFormed : Instr → Bool
  | .start v => v[0]
  | .driveLow => true
  | .release => true
  | .sample => true
  | .delayUs _ => true
  | .delayMs _ => true
  | .reset => true
  | .presence => true
  | .postReset => true
  | .bitReadL => true
  | .bitReadT => true
  | .checksumValidate => true
  | .decode => true

end Sys2Proof
end

