-- ==== Sys2Proof/Decode.lean ====
section
/-! DEFINITION. Decoding of command words, of words written to CTRL, of sequencer keys and of response words
(30_encoding.md sections 2 to 5 and 7), rejecting by name; the encoder; the host's entry `decodeTableWord`. -/

namespace Sys2Proof

/-- Why a word is no instruction. -/
inductive DecodeError where
  /-- A command word with OP 0 or 6 to 15 (R80). -/
  | reservedOpcode (op : BitVec 4)
  /-- DRIVE_LOW, RELEASE or SAMPLE with N not 0 (R81). -/
  | operandNotZero (op : BitVec 4) (n : BitVec 32)
  /-- A word whose bit 0 is 0 written to CTRL: no command (R77). -/
  | notStart
  /-- PHASE 0, IDLE: no routine (R21, R90). -/
  | idlePhase
  /-- PHASE 7 to 15: never taken (R21). -/
  | phaseNeverTaken (p : BitVec 4)
  /-- More bits than the format has. -/
  | tooWide
  deriving DecidableEq, Repr

/-- `OP = CW[35:32]` (R72). -/
def cmdOp (w : CmdWord) : BitVec 4 := w.extractLsb' 32 4

/-- `N = CW[31:0]` (R72). -/
def cmdOperand (w : CmdWord) : BitVec 32 := w.extractLsb' 0 32

/-- Bit 4 of a sequencer key, `SAMPLE_MODE` (R90). -/
def keyMode (k : PhaseKey) : Bool := k[4]

/-- Bits 3:0 of a sequencer key, `PHASE` (R90). -/
def keyPhase (k : PhaseKey) : BitVec 4 := k.extractLsb' 0 4

/-- A command without operand: N must be 0 (R81). -/
def plainCommand (w : CmdWord) (i : Instr) : Except DecodeError Instr :=
  if cmdOperand w = 0 then .ok i else .error (.operandNotZero (cmdOp w) (cmdOperand w))

/-- The opcode map of R73; R80, R81 for the rest. -/
def decodeCommand (w : CmdWord) : Except DecodeError Instr :=
  match (cmdOp w).toNat with
  | 1 => plainCommand w .driveLow
  | 2 => plainCommand w .release
  | 3 => plainCommand w .sample
  | 4 => .ok (.delayUs (cmdOperand w))
  | 5 => .ok (.delayMs (cmdOperand w))
  | _ => .error (.reservedOpcode (cmdOp w))

/-- A word written to CTRL (R77). -/
def decodeHostWord (v : HostWord) : Except DecodeError Instr :=
  if v[0] then .ok (.start v) else .error .notStart

/-- A sequencer key: the PHASE codes of 10_state.md R21; bit 4 tells the two BIT_READ rows apart and is ignored in the
five others (R90). -/
def decodePhaseKey (k : PhaseKey) : Except DecodeError Instr :=
  match (keyPhase k).toNat with
  | 0 => .error .idlePhase
  | 1 => .ok .reset
  | 2 => .ok .presence
  | 3 => .ok .postReset
  | 4 => .ok (if keyMode k then .bitReadT else .bitReadL)
  | 5 => .ok .checksumValidate
  | 6 => .ok .decode
  | _ => .error (.phaseNeverTaken (keyPhase k))

/-- The decoder, by format. -/
def decode : InstrWord → Except DecodeError Instr
  | .cw w => decodeCommand w
  | .host v => decodeHostWord v
  | .phase k => decodePhaseKey k

/-- `CW = {OP, N}` (R72). -/
def cmdWord (op : BitVec 4) (n : BitVec 32) : CmdWord := op ++ n

/-- The encoder, from the tables of R73, R77 and R90. The mode bit that R90 ignores is written 0. -/
def encode : Instr → InstrWord
  | .driveLow => .cw (cmdWord 0x1#4 0)
  | .release => .cw (cmdWord 0x2#4 0)
  | .sample => .cw (cmdWord 0x3#4 0)
  | .delayUs n => .cw (cmdWord 0x4#4 n)
  | .delayMs n => .cw (cmdWord 0x5#4 n)
  | .start v => .host v
  | .reset => .phase 0b00001#5
  | .presence => .phase 0b00010#5
  | .postReset => .phase 0b00011#5
  | .bitReadL => .phase 0b00100#5
  | .bitReadT => .phase 0b10100#5
  | .checksumValidate => .phase 0b00101#5
  | .decode => .phase 0b00110#5

/-- The word of the format that `nbits` names (a PHASE key in one byte, a HOST word in four, a command word in five),
with the bits numbered as opcode_table.json numbers them; `none` if `w` has a bit the format lacks. -/
def tableWord (nbits w : Nat) : Option InstrWord :=
  if nbits ≤ 8 then
    if w < 2 ^ 5 then some (.phase (BitVec.ofNat 5 w)) else none
  else if nbits ≤ 32 then
    if w < 2 ^ 32 then some (.host (BitVec.ofNat 32 w)) else none
  else
    if w < 2 ^ 36 then some (.cw (BitVec.ofNat 36 w)) else none

/-- The same, decoded, with the reason of a rejection. -/
def decodeSized (nbits w : Nat) : Except DecodeError Instr :=
  match tableWord nbits w with
  | some x => decode x
  | none => .error .tooWide

/-- The host's entry: the instruction the decoder reads from the bits `w` of a row of `nbits` bits (log 22). -/
def decodeTableWord (nbits w : Nat) : Option Instr :=
  match decodeSized nbits w with
  | .ok i => some i
  | .error _ => none

/-- `FAIL = RSP[9]` (R75). -/
def rspFail (r : RspWord) : Bool := r[9]

/-- `LEVEL = RSP[8]` (R75, R76: 1 is the high level). -/
def rspLevel (r : RspWord) : Bool := r[8]

/-- `ERR = RSP[7:0]` (R75). -/
def rspErr (r : RspWord) : Byte := r.extractLsb' 0 8

/-- A response word read against the instruction it answers (R75); `none` where there is no reading: a FAIL response to a
delay (R82), and an instruction that is no command. -/
def decodeResponse (i : Instr) (r : RspWord) : Option Answer :=
  match i with
  | .driveLow => some (if rspFail r then .fail (rspErr r) else .ok)
  | .release => some (if rspFail r then .fail (rspErr r) else .ok)
  | .sample => some (if rspFail r then .fail (rspErr r) else .level (rspLevel r))
  | .delayUs _ => if rspFail r then none else some .ok
  | .delayMs _ => if rspFail r then none else some .ok
  | .start _ => none
  | .reset => none
  | .presence => none
  | .postReset => none
  | .bitReadL => none
  | .bitReadT => none
  | .checksumValidate => none
  | .decode => none

/-- The conforming word of an answer (R75: ignored fields are sent as 0). -/
def encodeResponse : Answer → RspWord
  | .ok => 0x000#10
  | .level b => if b then 0x100#10 else 0x000#10
  | .fail e => 0b10#2 ++ e

end Sys2Proof
end

