-- ==== Sys2Proof/Machine/State.lean ====
section
/-! DEFINITION. The state of the machine as plain data: the elements of 10_state.md R20 and, marked as such, the model's
own fields (R37: parameters of the step relation); the reasons a step can be refused; the state after reset (R39). -/

namespace Sys2Proof.Machine

/-- PHASE (10_state.md R21). Codes 7 to 15 are never taken and have no constructor. -/
inductive Phase where
  | idle
  | reset
  | presence
  | postReset
  | bitRead
  | checksum
  | decode
  deriving DecidableEq, Repr

/-- STEP: the labels `S0` to `S6` of the routines' pseudocode (10_state.md R21). -/
inductive Step where
  | s0
  | s1
  | s2
  | s3
  | s4
  | s5
  | s6
  deriving DecidableEq, Repr

/-- LINE_DIR (10_state.md R29). Code 3 is never taken and has no constructor. -/
inductive LineDir where
  | released
  | low
  | unknown
  deriving DecidableEq, Repr

/-- KIND (10_state.md R31). -/
inductive Kind where
  | ok
  | busFault
  | timeout
  | checksumMismatch
  deriving DecidableEq, Repr

/-- What `raise` takes (60_exceptions.md R190). -/
inductive Err where
  | busFault (e : Byte)
  | timeout
  | checksumMismatch
  deriving DecidableEq, Repr

/-- What the Bus Line or the Delay Provider does with the next command: a response word, or nothing at all
(93_implementation_defined.md U9; log 5). -/
inductive Reply where
  | word (r : RspWord)
  | silent
  deriving DecidableEq, Repr

/-- One entry of a trace: a command word and what its response said (00_scope.md glossary, 30_encoding.md R86). -/
structure Exchange where
  word : CmdWord
  answer : Answer
  deriving DecidableEq, Repr

/-- What happens at the host's side in one step (log 7). Addresses are byte addresses of the platform's map (20_memory.md
R50), sizes are in bytes. -/
inductive HostEvent where
  /-- The host does nothing; the engine takes its step. -/
  | run
  /-- A read of `size` bytes. -/
  | load (addr size : Nat)
  /-- A write of `size` bytes. -/
  | store (addr size : Nat) (v : HostWord)
  /-- The reset input (70_reset_and_hazards.md R220). -/
  | resetInput
  /-- The host, or anyone but the engine, commands the line or uses the timer (60_exceptions.md R205). -/
  | foreignUse
  deriving DecidableEq, Repr

/-- The state. -/
structure State where
  /-- PHASE, half of SEQ, the block's program counter (R21). -/
  phase : Phase
  /-- STEP, the other half (R21). -/
  step : Step
  /-- BYTE_IDX (R23). -/
  byteIdx : BitVec 3
  /-- BIT_IDX (R24). -/
  bitIdx : BitVec 3
  /-- POLL_CNT (R25). -/
  pollCnt : BitVec 16
  /-- CUR (R26). -/
  cur : Byte
  /-- FRAME[0] to FRAME[4] (R27). -/
  frame : Vector Byte 5
  /-- CSUM (R28). -/
  csum : Byte
  /-- LINE_DIR (R29). -/
  lineDir : LineDir
  /-- BUSY (R30). -/
  busy : Bool
  /-- DONE (R30). -/
  done : Bool
  /-- KIND (R31). -/
  kind : Kind
  /-- FAULT (R36). -/
  fault : Byte
  /-- PAYLOAD (R34). -/
  payload : HostWord
  /-- TEMP (R35). -/
  temp : Byte
  /-- RH (R35). -/
  rh : Byte
  /-- The model's own: `cfg` (00_scope.md R6), constant (log 2). -/
  cfg : Cfg
  /-- The model's own: the Bus Line's answers to come, oldest first (log 3). -/
  bus : List Reply
  /-- The model's own: the Delay Provider's answers to come, oldest first (log 4). -/
  delay : List Reply
  /-- The model's own: the number of free answers taken (log 3). -/
  freeCount : Nat
  /-- The model's own: the commands of the transaction with their answers, oldest first (log 9). -/
  trace : List Exchange
  /-- The model's own: the host's schedule, next event first (log 7). -/
  host : List HostEvent
  /-- The model's own: what the last host read returned (log 8). -/
  hostData : Option HostWord
  deriving DecidableEq, Repr

/-- There is no machine fault: the block has no traps (60_exceptions.md) and 93_implementation_defined.md treats nothing
as one. The spec's three errors are next states (log 21). -/
inductive Fault
  deriving DecidableEq, Repr

/-- Why a step has no meaning. Each follows a treatment `refuse` of 93_implementation_defined.md; each is safe, since no
state is claimed to follow. -/
inductive Refusal where
  /-- An instruction without a meaning in this model: raised by no arm of `exec`. Safe. -/
  | notModelled (mnemonic : String)
  /-- A FAIL response to DELAY_US or DELAY_MS (R82, U2), raised by both and by every routine step that waits. Safe. -/
  | delayFailed
  /-- A STEP outside its phase's range (R21, U11), raised by every routine but BIT_READ.T. Safe. -/
  | stepNeverTaken
  /-- A sixth byte of a frame: BYTE_IDX 5 or more at a byte end (R23, R54, U11), raised by both BIT_READs. Safe. -/
  | byteIdxNeverTaken
  /-- PRESENCE_POLLS, BIT_POLL_MAX or BIT_THRESHOLD outside its legal values where it is used (R6, U16), raised by
  PRESENCE and BIT_READ.T. Safe. -/
  | illegalConfiguration
  /-- A host access outside registers 0 to 4 (R51, U6), raised by the host's accesses. Safe. -/
  | noSuchRegister
  /-- A host access that is not 32 bits wide (R52, U6). Safe. -/
  | wrongAccessWidth
  /-- A host access to an address that is no register's first byte (R52, U6). Safe. -/
  | misalignedAccess
  /-- Someone else uses the line or the timer while BUSY = 1 (R228, U8), raised by the host's schedule. Safe. -/
  | exclusiveUseViolated
  /-- A fetched word that is no instruction: raised by no step, see `fetch_decodes` in Laws/Step.lean. Safe. -/
  | noInstruction (e : DecodeError)
  deriving DecidableEq, Repr

/-- The outcome of a step of this machine. -/
abbrev Result := Host.Outcome State Fault Refusal

/-- The machine after reset with configuration `cfg`: R39's value for every element of R20; the model's own fields as
the log says (log 2, 3, 4, 7, 8, 9). -/
def State.afterReset (cfg : Cfg) : State where
  phase := .idle
  step := .s0
  byteIdx := 0
  bitIdx := 0
  pollCnt := 0
  cur := 0
  frame := #v[0, 0, 0, 0, 0]
  csum := 0
  lineDir := .released
  busy := false
  done := false
  kind := .ok
  fault := 0
  payload := 0
  temp := 0
  rh := 0
  cfg := cfg
  bus := []
  delay := []
  freeCount := 0
  trace := []
  host := []
  hostData := none

/-- The machine right after reset (R39, R220), under `REFCFG` (log 2). -/
def State.reset : State := State.afterReset refCfg

end Sys2Proof.Machine
end

