-- ==== Sys2Proof/Machine/Operands.lean ====
section
/-! DEFINITION. Operand forms and bit fields: the codes of the enumerations, legal limits, the instruction a wait issues,
the words on the capability port, the packing of the host registers, shift-in, byte sums, sign-magnitude. -/

namespace Sys2Proof.Machine

/-- PHASE codes (10_state.md R21). -/
def Phase.code : Phase → BitVec 4
  | .idle => 0
  | .reset => 1
  | .presence => 2
  | .postReset => 3
  | .bitRead => 4
  | .checksum => 5
  | .decode => 6

/-- STEP codes (10_state.md R21). -/
def Step.code : Step → BitVec 3
  | .s0 => 0
  | .s1 => 1
  | .s2 => 2
  | .s3 => 3
  | .s4 => 4
  | .s5 => 5
  | .s6 => 6

/-- LINE_DIR codes (10_state.md R29). -/
def LineDir.code : LineDir → BitVec 2
  | .released => 0
  | .low => 1
  | .unknown => 2

/-- KIND codes (10_state.md R31). -/
def Kind.code : Kind → BitVec 2
  | .ok => 0
  | .busFault => 1
  | .timeout => 2
  | .checksumMismatch => 3

/-- The legal values of `PRESENCE_POLLS` (00_scope.md R6). -/
def presencePollsLegal (c : Cfg) : Bool := decide (0 < c.presencePolls.toNat)

/-- The legal values of `BIT_POLL_MAX` and `BIT_THRESHOLD` (00_scope.md R6). -/
def bitLimitsLegal (c : Cfg) : Bool :=
  decide (0 < c.bitPollMax.toNat ∧ 0 < c.bitThreshold.toNat ∧ c.bitThreshold.toNat ≤ c.bitPollMax.toNat)

/-- A legal `cfg` (00_scope.md R6; any Duration is legal). -/
def cfgLegal (c : Cfg) : Bool := presencePollsLegal c && bitLimitsLegal c

/-- `DELAY d` is one command, chosen by the unit, its operand unchanged (00_scope.md R7, 30_encoding.md R74, R87). -/
def waitInstr (d : Duration) : Instr :=
  match d.unit with
  | .us => .delayUs d.n
  | .ms => .delayMs d.n

/-- The word an instruction puts on the capability port (30_encoding.md R72, R73); only commands put one there. -/
def portWord (i : Instr) : CmdWord :=
  match encode i with
  | .cw w => w
  | .host _ => 0
  | .phase _ => 0

/-- What the trace says of a line command's response (30_encoding.md R75, R86). -/
def lineAnswer (r : RspWord) : Answer := if rspFail r then .fail (rspErr r) else .ok

/-- What the trace says of SAMPLE's response (30_encoding.md R75, R86). -/
def sampleAnswer (r : RspWord) : Answer := if rspFail r then .fail (rspErr r) else .level (rspLevel r)

/-- `{CUR[6:0], b}` (43_frame_checksum_read.md R168 (c)). -/
def shiftIn (cur : Byte) (b : Bool) : Byte := cur.extractLsb' 0 7 ++ BitVec.ofBool b

/-- Checksum addition modulo 256 (43_frame_checksum_read.md R168 (a)). -/
def checksumAdd (sum b : Byte) : Byte := sum + b

/-- `FRAME[k] <- b` for `k` of 0 to 4; no other index is formed (20_memory.md R54). -/
def storeFrame (f : Vector Byte 5) (k : BitVec 3) (b : Byte) : Vector Byte 5 := f.setIfInBounds k.toNat b

/-- `{FRAME[0], FRAME[1], FRAME[2], FRAME[3]}` (10_state.md R34, 20_memory.md R58). -/
def packPayload (f : Vector Byte 5) : HostWord := f[0] ++ f[1] ++ f[2] ++ f[3]

/-- Sign-magnitude to two's complement (44_reading_decoder.md R180, R182). -/
def signMagnitude (b : Byte) : Byte :=
  let m : Byte := (b.extractLsb' 0 7).zeroExtend 8
  if b[7] then BitVec.ofNat 8 ((256 - m.toNat) % 256) else m

/-- `STATUS = {0[25:0], LINE_DIR, KIND, DONE, BUSY}` (10_state.md R33). -/
def statusWord (s : State) : HostWord :=
  (0 : BitVec 26) ++ s.lineDir.code ++ s.kind.code ++ BitVec.ofBool s.done ++ BitVec.ofBool s.busy

/-- `READING = {0[15:0], TEMP, RH}` (10_state.md R35). -/
def readingWord (s : State) : HostWord := (0 : BitVec 16) ++ s.temp ++ s.rh

/-- `FAULT = {0[23:0], E}` (10_state.md R36). -/
def faultWord (s : State) : HostWord := (0 : BitVec 24) ++ s.fault

/-- The five host registers (20_memory.md R50). -/
inductive HostReg where
  | ctrl
  | status
  | payload
  | reading
  | fault
  deriving DecidableEq, Repr

/-- The value of a host register (10_state.md R32 to R36); CTRL reads 0. -/
def readReg (s : State) : HostReg → HostWord
  | .ctrl => 0
  | .status => statusWord s
  | .payload => s.payload
  | .reading => readingWord s
  | .fault => faultWord s

/-- The register number `r` (20_memory.md R50, R51). -/
def regOfNumber : Nat → Except Refusal HostReg
  | 0 => .ok .ctrl
  | 1 => .ok .status
  | 2 => .ok .payload
  | 3 => .ok .reading
  | 4 => .ok .fault
  | _ => .error .noSuchRegister

/-- The register a host access reaches: `OWE_BASE + 4*r`, whole 32-bit registers only (20_memory.md R50 to R52; log 24).
DESIGN CHOICE (log 26): R52's "byte address that is not a multiple of 4" is read of the offset from `OWE_BASE`, whose own
alignment the spec leaves open; and the width is looked at first, then the place, then the number. -/
def regOfAccess (base addr size : Nat) : Except Refusal HostReg :=
  if size ≠ 4 then .error .wrongAccessWidth
  else if addr < base then .error .noSuchRegister
  else if (addr - base) % 4 ≠ 0 then .error .misalignedAccess
  else regOfNumber ((addr - base) / 4)

/-- The sequencer key `{cfg.SAMPLE_MODE, PHASE}` (30_encoding.md R90). -/
def sequencerKey (s : State) : PhaseKey :=
  (match s.cfg.sampleMode with | .level => 0#1 | .threshold => 1#1) ++ s.phase.code

end Sys2Proof.Machine
end

