-- ==== Sys2Proof/Machine/Flags.lean ====
section
/-! DEFINITION. The flags: what LINE_DIR, KIND and FAULT become (10_state.md R29, R31, 60_exceptions.md R196), the `done`
wire (R200), and the block's comparisons (43_frame_checksum_read.md R168). There are no condition codes. -/

namespace Sys2Proof.Machine

/-- KIND of an error (60_exceptions.md R196). -/
def Err.kind : Err → Kind
  | .busFault _ => .busFault
  | .timeout => .timeout
  | .checksumMismatch => .checksumMismatch

/-- FAULT of an error (60_exceptions.md R191 to R193, R196). -/
def Err.faultValue : Err → Byte
  | .busFault e => e
  | .timeout => 0
  | .checksumMismatch => 0

/-- LINE_DIR after a DRIVE_LOW (10_state.md R29, 40_capability_ops.md R100). -/
def lineAfterDriveLow (failed : Bool) : LineDir := if failed then .unknown else .low

/-- LINE_DIR after a RELEASE (10_state.md R29, 40_capability_ops.md R101). -/
def lineAfterRelease (failed : Bool) : LineDir := if failed then .unknown else .released

/-- The `done` wire equals DONE at all times (60_exceptions.md R200). -/
def doneWire (s : State) : Bool := s.done

/-- `POLL_CNT < cfg.BIT_THRESHOLD`, unsigned: the bit of a THRESHOLD slot (42_bit_byte_read.md R141, R168 (e)). -/
def thresholdBit (s : State) : Bool := decide (s.pollCnt < s.cfg.bitThreshold)

/-- `CSUM = FRAME[4]` (43_frame_checksum_read.md R162, R168 (b)). -/
def checksumEqual (s : State) : Bool := decide (s.csum = s.frame[4])

end Sys2Proof.Machine
end

