-- ==== Sys2Proof/Machine/Ops.lean ====
section
/-! DEFINITION. The named operations over State: SEQ, the capability port, failure completion (`raise`, the block's one
way of taking an exception) with success completion and START beside it, the host's accesses, the reset input. -/

namespace Sys2Proof.Machine

/-- `SEQ <- (phase, step)` (00_scope.md R11). -/
def State.goto (s : State) (p : Phase) (k : Step) : State := { s with phase := p, step := k }

/-- LINE_DIR <- d. -/
def State.setLineDir (s : State) (d : LineDir) : State := { s with lineDir := d }

/-- POLL_CNT <- n. -/
def State.setPollCnt (s : State) (n : BitVec 16) : State := { s with pollCnt := n }

/-- CUR <- v. -/
def State.setCur (s : State) (v : Byte) : State := { s with cur := v }

/-- Failure completion, the effect of `raise X` (60_exceptions.md R196). -/
def State.raise (s : State) (x : Err) : State :=
  { s with
    kind := x.kind
    fault := x.faultValue
    payload := 0
    temp := 0
    rh := 0
    done := true
    busy := false
    phase := .idle
    step := .s0 }

/-- Success completion (43_frame_checksum_read.md R167). -/
def State.succeed (s : State) (rh temp : Byte) : State :=
  { s with
    payload := packPayload s.frame
    rh := rh
    temp := temp
    kind := .ok
    fault := 0
    done := true
    busy := false
    phase := .idle
    step := .s0 }

/-- START's writes (43_frame_checksum_read.md R165). The trace is that of one transaction and begins anew (log 9). -/
def State.begin (s : State) : State :=
  { s with
    busy := true
    done := false
    kind := .ok
    fault := 0
    payload := 0
    temp := 0
    rh := 0
    byteIdx := 0
    bitIdx := 0
    cur := 0
    csum := 0
    pollCnt := 0
    phase := .reset
    step := .s0
    trace := [] }

/-- What the Bus Line does with the next command: what State lists, or else a free response word (log 3). -/
def State.busReply (s : State) : Reply :=
  match s.bus with
  | [] => .word (Config.freeBusResponse s.freeCount)
  | a :: _ => a

/-- What the Delay Provider does with the next command: what State lists, or else the contract's `Ok` (40_capability_ops.md
R107; log 4). -/
def State.delayReply (s : State) : Reply :=
  match s.delay with
  | [] => .word 0
  | a :: _ => a

/-- The Bus Line's next answer is used up. -/
def State.dropBus (s : State) : State :=
  match s.bus with
  | [] => { s with freeCount := s.freeCount + 1 }
  | _ :: rest => { s with bus := rest }

/-- The Delay Provider's next answer is used up. -/
def State.dropDelay (s : State) : State := { s with delay := s.delay.tail }

/-- An exchange on the capability port is complete: one entry of the trace (20_memory.md R56, 30_encoding.md R86). -/
def State.record (s : State) (i : Instr) (a : Answer) : State := { s with trace := s.trace ++ [⟨portWord i, a⟩] }

/-- A command to the Bus Line. It waits for ever if it is not answered (U9); a response with FAIL sets what `failed` sets
and raises BusFault (40_capability_ops.md R106), looked at before anything else (60_exceptions.md R201); else the routine goes
on with the response. -/
def busCommand (i : Instr) (answer : RspWord → Answer) (s : State) (failed : State → State)
    (k : RspWord → State → State) : Result :=
  match s.busReply with
  | .silent => .next s
  | .word r =>
    .next
      (if rspFail r then (failed (s.dropBus.record i (answer r))).raise (.busFault (rspErr r))
       else k r (s.dropBus.record i (answer r)))

/-- `Cap(DRIVE_LOW)` (40_capability_ops.md R100). -/
def driveLow (s : State) (k : State → State) : Result :=
  busCommand .driveLow lineAnswer s (fun t => t.setLineDir (lineAfterDriveLow true))
    (fun _ t => k (t.setLineDir (lineAfterDriveLow false)))

/-- `Cap(RELEASE)` (40_capability_ops.md R101). -/
def release (s : State) (k : State → State) : Result :=
  busCommand .release lineAnswer s (fun t => t.setLineDir (lineAfterRelease true))
    (fun _ t => k (t.setLineDir (lineAfterRelease false)))

/-- `Level(b) <- Cap(SAMPLE)` (40_capability_ops.md R102): LINE_DIR unchanged, also on failure. -/
def sample (s : State) (k : Bool → State → State) : Result :=
  busCommand .sample sampleAnswer s (fun t => t) (fun r t => k (rspLevel r) t)

/-- `Delay(d)` (00_scope.md R7, R11; 40_capability_ops.md R103, R104): no state of the engine changes. It waits for ever if
it is not answered (U9); a FAIL response has no meaning (30_encoding.md R82). -/
def waitFor (d : Duration) (s : State) (k : State → Result) : Result :=
  match s.delayReply with
  | .silent => .next s
  | .word r => if rspFail r then .refused .delayFailed else k (s.dropDelay.record (waitInstr d) .ok)

/-- The command the engine issues at its position, if that is one (the action column of 43_frame_checksum_read.md R166). -/
def State.command (s : State) : Option Instr :=
  match s.phase, s.step with
  | .reset, .s0 => some .driveLow
  | .reset, .s1 => some (waitInstr s.cfg.tResetLow)
  | .reset, .s2 => some .release
  | .presence, .s0 => some (waitInstr s.cfg.tPresenceDelay)
  | .presence, .s1 => some .sample
  | .presence, .s2 => some (waitInstr s.cfg.tPresencePoll)
  | .postReset, .s0 => some (waitInstr s.cfg.tPostReset)
  | .bitRead, .s0 => some .driveLow
  | .bitRead, .s1 => some (waitInstr s.cfg.tSlotLow)
  | .bitRead, .s2 => some .release
  | .bitRead, .s3 => some (waitInstr s.cfg.tSettle)
  | .bitRead, .s4 => some .sample
  | .bitRead, .s5 => some (waitInstr s.cfg.tBitPoll)
  | .bitRead, .s6 => some (waitInstr s.cfg.tRecovery)
  | _, _ => none

/-- The instruction is a command to the Bus Line, not to the Delay Provider (30_encoding.md R73). -/
def toBusLine : Instr → Bool
  | .driveLow => true
  | .release => true
  | .sample => true
  | .delayUs _ => false
  | .delayMs _ => false
  | .start _ => false
  | .reset => false
  | .presence => false
  | .postReset => false
  | .bitReadL => false
  | .bitReadT => false
  | .checksumValidate => false
  | .decode => false

/-- The command at the engine's position has been issued and stays unanswered (U9). -/
def State.outstanding (s : State) : Bool :=
  s.busy && match s.command with
    | none => false
    | some i => if toBusLine i then s.busReply == .silent else s.delayReply == .silent

/-- The response to an outstanding command is discarded (70_reset_and_hazards.md R223; log 15). -/
def State.dropOutstanding (s : State) : State :=
  if s.outstanding then
    match s.command with
    | none => s
    | some i => if toBusLine i then s.dropBus else s.dropDelay
  else s

/-- The reset input (10_state.md R39, 70_reset_and_hazards.md R220 to R223): every element of R20 takes its reset value, no
command is issued; `cfg`, the environment and the trace are not the block's state. -/
def State.hardReset (s : State) : State :=
  { s.dropOutstanding with
    phase := .idle
    step := .s0
    byteIdx := 0
    bitIdx := 0
    pollCnt := 0
    cur := 0
    frame := #v[0, 0, 0, 0, 0]
    csum := 0
    lineDir := .released
    busy := false
    done := false
    kind := .ok
    fault := 0
    payload := 0
    temp := 0
    rh := 0 }

/-- A host read (20_memory.md R50 to R53): no side effect on the block. -/
def hostLoad (addr size : Nat) (s : State) : Result :=
  match regOfAccess s.cfg.oweBase addr size with
  | .ok r => .next { s with hostData := some (readReg s r) }
  | .error e => .refused e

end Sys2Proof.Machine
end

