-- ==== Sys2Proof/Machine/BitRead.lean ====
section
/-! DEFINITION. Read time slots: BIT_READ in LEVEL and in THRESHOLD mode, slot end and byte end (42_bit_byte_read.md). -/

namespace Sys2Proof.Machine

/-- The writes of byte end (R143): the byte is stored, all but the fifth are added to CSUM. -/
def byteStored (t : State) : State :=
  { t with
    frame := storeFrame t.frame t.byteIdx t.cur
    csum := if t.byteIdx.toNat < 4 then checksumAdd t.csum t.cur else t.csum
    byteIdx := t.byteIdx + 1#3
    bitIdx := 0
    cur := 0 }

/-- Byte end (R143). BYTE_IDX above 4 is never taken (93_implementation_defined.md U11). -/
def byteEnd (t : State) : Result :=
  if t.byteIdx.toNat < 4 then .next ((byteStored t).goto .bitRead .s0)
  else if t.byteIdx.toNat = 4 then .next ((byteStored t).goto .checksum .s0)
  else .refused .byteIdxNeverTaken

/-- BIT_IDX <- BIT_IDX + 1 (R142). -/
def bitCounted (t : State) : State := { t with bitIdx := t.bitIdx + 1#3 }

/-- Slot end (R142). -/
def slotEnd (t : State) : Result :=
  if t.bitIdx.toNat < 7 then .next ((bitCounted t).goto .bitRead .s0) else byteEnd t

/-- S0 of a slot, both modes: the slot is opened. -/
def slotOpen (s : State) : Result := driveLow s (fun t => t.goto .bitRead .s1)

/-- S1 of a slot, both modes. -/
def slotHold (s : State) : Result := waitFor s.cfg.tSlotLow s (fun t => .next (t.goto .bitRead .s2))

/-- S2 of a slot, both modes. -/
def slotRelease (s : State) : Result := release s (fun t => t.goto .bitRead .s3)

/-- S6 of a slot, both modes: the recovery delay, after the last slot too, then slot end. -/
def slotRecover (s : State) : Result := waitFor s.cfg.tRecovery s slotEnd

/-- S4 in LEVEL mode after its sample (R140): the sampled level is the bit. -/
def levelSampled (b : Bool) (t : State) : State := (t.setCur (shiftIn t.cur b)).goto .bitRead .s6

/-- S4 in THRESHOLD mode after its sample (R141): a high level ends the loop with a bit; a low one is counted, and the last
allowed one raises Timeout (order of 60_exceptions.md R201). -/
def thresholdSampled (level : Bool) (t : State) : State :=
  if level then (t.setCur (shiftIn t.cur (thresholdBit t))).goto .bitRead .s6
  else
    let u := t.setPollCnt (t.pollCnt + 1#16)
    if u.pollCnt = u.cfg.bitPollMax then u.raise .timeout else u.goto .bitRead .s5

/-- BIT_READ, LEVEL mode (R140); S5 is not used. -/
def execBitReadL (s : State) : Result :=
  match s.step with
  | .s0 => slotOpen s
  | .s1 => slotHold s
  | .s2 => slotRelease s
  | .s3 => waitFor s.cfg.tSettle s (fun t => .next (t.goto .bitRead .s4))
  | .s4 => sample s levelSampled
  | .s5 => .refused .stepNeverTaken
  | .s6 => slotRecover s

/-- BIT_READ, THRESHOLD mode (R141). Limits that are not legal have no meaning where they are compared (U16). -/
def execBitReadT (s : State) : Result :=
  match s.step with
  | .s0 => slotOpen s
  | .s1 => slotHold s
  | .s2 => slotRelease s
  | .s3 => waitFor s.cfg.tSettle s (fun t => .next ((t.setPollCnt 0).goto .bitRead .s4))
  | .s4 =>
    if bitLimitsLegal s.cfg then sample s thresholdSampled
    else .refused .illegalConfiguration
  | .s5 => waitFor s.cfg.tBitPoll s (fun t => .next (t.goto .bitRead .s4))
  | .s6 => slotRecover s

end Sys2Proof.Machine
end

