-- ==== Sys2Proof/Machine/Capability.lean ====
section
/-! DEFINITION. The five capability commands (40_capability_ops.md), each with the effect its own rule gives it and no
more: the routine that issues a command moves SEQ and uses a sampled level (log 12). -/

namespace Sys2Proof.Machine

/-- DRIVE_LOW (R100). -/
def execDriveLow (s : State) : Result := driveLow s (fun t => t)

/-- RELEASE (R101). -/
def execRelease (s : State) : Result := release s (fun t => t)

/-- SAMPLE (R102). The level is the issuing routine's and is stored nowhere (10_state.md R37); it is in the trace. -/
def execSample (s : State) : Result := sample s (fun _ t => t)

/-- DELAY_US n (R103). -/
def execDelayUs (n : BitVec 32) (s : State) : Result := waitFor ⟨.us, n⟩ s .next

/-- DELAY_MS n (R104). -/
def execDelayMs (n : BitVec 32) (s : State) : Result := waitFor ⟨.ms, n⟩ s .next

end Sys2Proof.Machine
end

