-- ==== Sys2Proof/Machine/ResetPresence.lean ====
section
/-! DEFINITION. The reset/presence phase: RESET, PRESENCE, POST_RESET (41_reset_presence.md). A routine executes its action
at the present STEP. -/

namespace Sys2Proof.Machine

/-- Where RESET S2 goes (R120). -/
def afterResetPulse (t : State) : State :=
  if t.cfg.presenceCheck then t.goto .presence .s0 else t.goto .postReset .s0

/-- RESET (R120). -/
def execReset (s : State) : Result :=
  match s.step with
  | .s0 => driveLow s (fun t => t.goto .reset .s1)
  | .s1 => waitFor s.cfg.tResetLow s (fun t => .next (t.goto .reset .s2))
  | .s2 => release s afterResetPulse
  | .s3 | .s4 | .s5 | .s6 => .refused .stepNeverTaken

/-- PRESENCE S1 after its sample (R121): a low level is presence; a high one is counted, and the last allowed one raises
Timeout (order of 60_exceptions.md R201). -/
def presenceSampled (level : Bool) (t : State) : State :=
  if level then
    let u := t.setPollCnt (t.pollCnt + 1#16)
    if u.pollCnt = u.cfg.presencePolls then u.raise .timeout else u.goto .presence .s2
  else t.goto .postReset .s0

/-- PRESENCE (R121). A PRESENCE_POLLS that is not legal has no meaning where it is compared (93_implementation_defined.md
U16). -/
def execPresence (s : State) : Result :=
  match s.step with
  | .s0 => waitFor s.cfg.tPresenceDelay s (fun t => .next ((t.setPollCnt 0).goto .presence .s1))
  | .s1 =>
    if presencePollsLegal s.cfg then sample s presenceSampled
    else .refused .illegalConfiguration
  | .s2 => waitFor s.cfg.tPresencePoll s (fun t => .next (t.goto .presence .s1))
  | .s3 | .s4 | .s5 | .s6 => .refused .stepNeverTaken

/-- POST_RESET (R122). -/
def execPostReset (s : State) : Result :=
  match s.step with
  | .s0 => waitFor s.cfg.tPostReset s (fun t => .next (t.goto .bitRead .s0))
  | .s1 | .s2 | .s3 | .s4 | .s5 | .s6 => .refused .stepNeverTaken

end Sys2Proof.Machine
end

