-- ==== Sys2Proof/Machine/Transaction.lean ====
section
/-! DEFINITION. The whole transaction's ends: START and CHECKSUM_VALIDATE (43_frame_checksum_read.md), DECODE with success
completion (44_reading_decoder.md). -/

namespace Sys2Proof.Machine

/-- START (R165): ignored while BUSY = 1, and when bit 0 of the word is 0; bits 31:1 are not looked at (R32). -/
def execStart (v : HostWord) (s : State) : Result :=
  if v[0] && !s.busy then .next s.begin else .next s

/-- CHECKSUM_VALIDATE (R162). -/
def execChecksumValidate (s : State) : Result :=
  match s.step with
  | .s0 => .next (if checksumEqual s then s.goto .decode .s0 else s.raise .checksumMismatch)
  | .s1 | .s2 | .s3 | .s4 | .s5 | .s6 => .refused .stepNeverTaken

/-- DECODE (R180 to R183): humidity is FRAME[0] as it is, temperature is FRAME[2] decoded; then success completion (R167). -/
def execDecode (s : State) : Result :=
  match s.step with
  | .s0 => .next (s.succeed s.frame[0] (signMagnitude s.frame[2]))
  | .s1 | .s2 | .s3 | .s4 | .s5 | .s6 => .refused .stepNeverTaken

end Sys2Proof.Machine
end

