-- ==== Sys2Proof/Machine/Dispatch.lean ====
section
/-! DEFINITION. The dispatcher: one arm per constructor of Instr, each one direct call of its meaning. -/

namespace Sys2Proof.Machine

def exec (i : Instr) (s : State) : Host.Outcome State Fault Refusal :=
  match i with
  -- capability commands
  | .driveLow => Sys2Proof.Machine.execDriveLow s
  | .release => Sys2Proof.Machine.execRelease s
  | .sample => Sys2Proof.Machine.execSample s
  | .delayUs n => Sys2Proof.Machine.execDelayUs n s
  | .delayMs n => Sys2Proof.Machine.execDelayMs n s
  -- host command
  | .start v => Sys2Proof.Machine.execStart v s
  -- sequencer routines
  | .reset => Sys2Proof.Machine.execReset s
  | .presence => Sys2Proof.Machine.execPresence s
  | .postReset => Sys2Proof.Machine.execPostReset s
  | .bitReadL => Sys2Proof.Machine.execBitReadL s
  | .bitReadT => Sys2Proof.Machine.execBitReadT s
  | .checksumValidate => Sys2Proof.Machine.execChecksumValidate s
  | .decode => Sys2Proof.Machine.execDecode s

end Sys2Proof.Machine
end

