-- ==== Sys2Proof/Machine/Fetch.lean ====
section
/-! DEFINITION. What the next step is: the head of the host's schedule, or the engine's routine at SEQ (00_scope.md R12,
10_state.md R21, 20_memory.md R50 to R53); and the placing of an instruction there. -/

namespace Sys2Proof.Machine

/-- What a fetch gives: an instruction word with the state it runs in, or a step that runs none. -/
inductive Fetched where
  | instr (w : InstrWord) (s : State)
  | plain (r : Result)
  deriving Repr

/-- The engine's turn: while BUSY = 1 the routine PHASE names runs; otherwise the engine does nothing (20_memory.md R55,
R56, 70_reset_and_hazards.md R222). -/
def engineFetch (s : State) : Fetched :=
  if s.busy && s.phase != .idle then .instr (.phase (sequencerKey s)) s else .plain (.next s)

/-- A host write (20_memory.md R50 to R53): to CTRL with bit 0 set it is START; every other legal one is ignored. -/
def hostStore (addr size : Nat) (v : HostWord) (s : State) : Fetched :=
  match regOfAccess s.cfg.oweBase addr size with
  | .ok .ctrl => if v[0] then .instr (.host v) s else .plain (.next s)
  | .ok .status => .plain (.next s)
  | .ok .payload => .plain (.next s)
  | .ok .reading => .plain (.next s)
  | .ok .fault => .plain (.next s)
  | .error e => .plain (.refused e)

/-- Use of the line or the timer by another agent: allowed while BUSY = 0, without meaning while BUSY = 1 (60_exceptions.md
R205, 70_reset_and_hazards.md R228, 93_implementation_defined.md U8). -/
def foreignUse (s : State) : Result := if s.busy then .refused .exclusiveUseViolated else .next s

/-- One host event, in the state whose schedule is past it. -/
def hostFetch (e : HostEvent) (s : State) : Fetched :=
  match e with
  | .run => engineFetch s
  | .load addr size => .plain (hostLoad addr size s)
  | .store addr size v => hostStore addr size v s
  | .resetInput => .plain (.next s.hardReset)
  | .foreignUse => .plain (foreignUse s)

/-- The next step: the host's next event, or the engine's turn when nothing is scheduled (log 7). -/
def fetch (s : State) : Fetched :=
  match s.host with
  | [] => engineFetch s
  | e :: rest => hostFetch e { s with host := rest }

/-- The engine stands at `(p, k)` with BUSY = 1 and the next step is its own. -/
def placeAt (s : State) (p : Phase) (k : Step) : State :=
  { s with busy := true, phase := p, step := k, host := .run :: s.host }

/-- The position, and the configuration, at which the engine issues a command (43_frame_checksum_read.md R166): DRIVE_LOW,
a wait and RELEASE in RESET, SAMPLE in PRESENCE. -/
def placeCommand (s : State) (i : Instr) : State :=
  match i with
  | .driveLow => placeAt s .reset .s0
  | .release => placeAt s .reset .s2
  | .sample => placeAt s .presence .s1
  | .delayUs n => placeAt { s with cfg := { s.cfg with tResetLow := ⟨.us, n⟩ } } .reset .s1
  | .delayMs n => placeAt { s with cfg := { s.cfg with tResetLow := ⟨.ms, n⟩ } } .reset .s1
  | .start _ => s
  | .reset => s
  | .presence => s
  | .postReset => s
  | .bitReadL => s
  | .bitReadT => s
  | .checksumValidate => s
  | .decode => s

/-- The phase of a routine. -/
def routinePhase (i : Instr) : Option Phase :=
  match i with
  | .reset => some .reset
  | .presence => some .presence
  | .postReset => some .postReset
  | .bitReadL => some .bitRead
  | .bitReadT => some .bitRead
  | .checksumValidate => some .checksum
  | .decode => some .decode
  | .driveLow => none
  | .release => none
  | .sample => none
  | .delayUs _ => none
  | .delayMs _ => none
  | .start _ => none

/-- The engine stands at the first step of the routine of a key, with the key's mode. -/
def placeRoutine (s : State) (k : PhaseKey) (p : Phase) : State :=
  placeAt { s with cfg := { s.cfg with sampleMode := if keyMode k then .threshold else .level } } p .s0

/-- An instruction word where the next step finds it (log 13): a command word at a position that issues it, a CTRL word as
the host's next write, a key as SEQ. A word that is no instruction is placed nowhere. -/
def placeWord (s : State) (w : InstrWord) : State :=
  match w with
  | .cw c =>
    match decodeCommand c with
    | .ok i => placeCommand s i
    | .error _ => s
  | .host v => { s with host := .store s.cfg.oweBase 4 v :: s.host }
  | .phase k =>
    match decodePhaseKey k with
    | .ok i =>
      match routinePhase i with
      | some p => placeRoutine s k p
      | none => s
    | .error _ => s

end Sys2Proof.Machine
end

