-- ==== Sys2Proof/Machine/Step.lean ====
section
/-! DEFINITION. One step of the machine: fetch, decode, execute; and the host's entry that places an instruction. -/

namespace Sys2Proof.Machine

/-- One step. -/
def step (s : State) : Host.Outcome State Fault Refusal :=
  match fetch s with
  | .plain r => r
  | .instr w t =>
    match decode w with
    | .ok i => exec i t
    | .error e => .refused (.noInstruction e)

/-- `s` with the instruction whose bits are `w` where `step` fetches its next one (log 13). -/
def State.withFetchWord (s : State) (nbits w : Nat) : State :=
  match tableWord nbits w with
  | some x => placeWord s x
  | none => s

end Sys2Proof.Machine
end

