-- ==== Sys2Proof/Machine/Trace.lean ====
section
/-! DEFINITION. Traces: their textual form and macros (30_encoding.md R86, R89), and their nominal length (00_scope.md R7,
70_reset_and_hazards.md R235). -/

namespace Sys2Proof.Machine

/-- `us(d)` (00_scope.md R7). PRESUMED: 1 ms is 1000 us is general knowledge, not in the source (93_implementation_defined.md
G1; log 18). No step reads it. -/
def nominalUs (d : Duration) : Nat :=
  match d.unit with
  | .us => d.n.toNat
  | .ms => 1000 * d.n.toNat

/-- The nominal length of one command: that of its delay, else 0 (70_reset_and_hazards.md R235). -/
def wordMicros (w : CmdWord) : Nat :=
  match decodeCommand w with
  | .ok (.delayUs n) => nominalUs ⟨.us, n⟩
  | .ok (.delayMs n) => nominalUs ⟨.ms, n⟩
  | _ => 0

/-- The sum of `us(d)` over a trace's delay commands (70_reset_and_hazards.md R235). -/
def nominalMicros (tr : List Exchange) : Nat := (tr.map (fun e => wordMicros e.word)).sum

/-- `DELAY d`: one line (30_encoding.md R87). -/
def delayLine (d : Duration) : Exchange := ⟨portWord (waitInstr d), .ok⟩

/-- `SLOT b`, six lines, LEVEL mode (30_encoding.md R89). -/
def slotLines (c : Cfg) (b : Bool) : List Exchange :=
  [⟨portWord .driveLow, .ok⟩, delayLine c.tSlotLow, ⟨portWord .release, .ok⟩, delayLine c.tSettle,
    ⟨portWord .sample, .level b⟩, delayLine c.tRecovery]

/-- The bits of a byte in the order of the wire, most significant first (20_memory.md R57). -/
def wireBits (v : Byte) : List Bool :=
  [v[7], v[6], v[5], v[4], v[3], v[2], v[1], v[0]]

/-- `BYTE v`, eight slots (30_encoding.md R89). -/
def byteLines (c : Cfg) (v : Byte) : List Exchange := (wireBits v).flatMap (slotLines c)

/-- `FRAME v0 v1 v2 v3 v4`, forty slots (30_encoding.md R89). -/
def frameLines (c : Cfg) (f : Vector Byte 5) : List Exchange :=
  byteLines c f[0] ++ byteLines c f[1] ++ byteLines c f[2] ++ byteLines c f[3] ++ byteLines c f[4]

/-- The lines of PRESENCE when the sample after `k` high ones is low; none without a presence check (41_reset_presence.md
R121, R123). -/
def presenceLines (c : Cfg) (k : Nat) : List Exchange :=
  if c.presenceCheck then
    delayLine c.tPresenceDelay ::
      ((List.replicate k [⟨portWord .sample, .level true⟩, delayLine c.tPresencePoll]).flatten ++
        [⟨portWord .sample, .level false⟩])
  else []

/-- The lines of a transaction before its frame (41_reset_presence.md R120 to R123). -/
def beforeFrameLines (c : Cfg) (k : Nat) : List Exchange :=
  [⟨portWord .driveLow, .ok⟩, delayLine c.tResetLow, ⟨portWord .release, .ok⟩] ++ presenceLines c k ++
    [delayLine c.tPostReset]

/-- The conforming response to a SAMPLE (30_encoding.md R75). -/
def levelReply (b : Bool) : Reply := .word (encodeResponse (.level b))

/-- The Bus Line's answers over one LEVEL slot that reads `b`. -/
def slotReplies (b : Bool) : List Reply := [.word (encodeResponse .ok), .word (encodeResponse .ok), levelReply b]

/-- The Bus Line's answers over the eight LEVEL slots of a byte. -/
def byteReplies (v : Byte) : List Reply := (wireBits v).flatMap slotReplies

/-- The Bus Line's answers over the forty LEVEL slots of a frame: "a canned bit sequence" (95_test_vectors.md S9). -/
def frameReplies (f : Vector Byte 5) : List Reply :=
  byteReplies f[0] ++ byteReplies f[1] ++ byteReplies f[2] ++ byteReplies f[3] ++ byteReplies f[4]

/-- The Bus Line's answers before the frame, with `k` high presence samples before the low one. -/
def beforeFrameReplies (c : Cfg) (k : Nat) : List Reply :=
  [.word (encodeResponse .ok), .word (encodeResponse .ok)] ++
    (if c.presenceCheck then List.replicate k (levelReply true) ++ [levelReply false] else [])

/-- A hexadecimal digit. -/
def hexDigit (n : Nat) : String :=
  if n < 10 then toString n
  else match n with
    | 10 => "A"
    | 11 => "B"
    | 12 => "C"
    | 13 => "D"
    | 14 => "E"
    | _ => "F"

/-- A response as R86 writes it. -/
def answerText : Answer → String
  | .ok => "ok"
  | .level b => if b then "1" else "0"
  | .fail e => "fail(0x" ++ hexDigit (e.toNat / 16) ++ hexDigit (e.toNat % 16) ++ ")"

/-- The mnemonic, and for a delay its count in decimal, as R86 writes them; a reserved word has no such text (R80). -/
def commandText (w : CmdWord) : Option String :=
  match decodeCommand w with
  | .ok .driveLow => some "DRIVE_LOW"
  | .ok .release => some "RELEASE"
  | .ok .sample => some "SAMPLE"
  | .ok (.delayUs n) => some ("DELAY_US " ++ toString n.toNat)
  | .ok (.delayMs n) => some ("DELAY_MS " ++ toString n.toNat)
  | _ => none

/-- One line of a trace (30_encoding.md R86); `none` says the trace is malformed (R80, R81). -/
def traceLine (e : Exchange) : Option String :=
  (commandText e.word).map (fun c => c ++ " -> " ++ answerText e.answer)

end Sys2Proof.Machine
end

