-- ==== Sys2Proof/Safety.lean ====
section
/-! DEFINITION. What counts as a legal state and a safe run, in the terms the statements use. -/

namespace Sys2Proof.Machine

/-- The steps a phase has (10_state.md R21; S5 of BIT_READ in THRESHOLD mode only, R140). -/
def stepInRange (m : SampleMode) : Phase → Step → Bool
  | .idle, k => k == .s0
  | .reset, k => k == .s0 || k == .s1 || k == .s2
  | .presence, k => k == .s0 || k == .s1 || k == .s2
  | .postReset, k => k == .s0
  | .bitRead, k => k != .s5 || m == .threshold
  | .checksum, k => k == .s0
  | .decode, k => k == .s0

/-- BYTE_IDX and BIT_IDX in each phase (10_state.md R23, R24). -/
def IndicesFit (s : State) : Prop :=
  match s.phase with
  | .idle => s.byteIdx.toNat ≤ 5
  | .reset => s.byteIdx = 0 ∧ s.bitIdx = 0
  | .presence => s.byteIdx = 0 ∧ s.bitIdx = 0
  | .postReset => s.byteIdx = 0 ∧ s.bitIdx = 0
  | .bitRead => s.byteIdx.toNat < 5
  | .checksum => s.byteIdx = 5 ∧ s.bitIdx = 0
  | .decode => s.byteIdx = 5 ∧ s.bitIdx = 0

/-- The sequencer's position is legal (10_state.md R21 to R24, R30; 41_reset_presence.md R121). -/
structure PositionInv (s : State) : Prop where
  busyIff : s.busy = true ↔ s.phase ≠ .idle
  notBoth : ¬ (s.busy = true ∧ s.done = true)
  inRange : stepInRange s.cfg.sampleMode s.phase s.step = true
  presenceEntered : s.phase = .presence → s.cfg.presenceCheck = true
  indices : IndicesFit s

/-- LINE_DIR at each position (10_state.md R29; 60_exceptions.md R195), and RELEASED after everything but a BusFault (R199). -/
def LineInv (s : State) : Prop :=
  match s.phase, s.step with
  | .idle, _ => s.lineDir ≠ .low ∧ (s.kind ≠ .busFault → s.lineDir = .released)
  | .reset, .s0 => s.lineDir ≠ .low
  | .reset, _ => s.lineDir = .low
  | .bitRead, .s1 => s.lineDir = .low
  | .bitRead, .s2 => s.lineDir = .low
  | _, _ => s.lineDir = .released

/-- POLL_CNT stays below the limit of the loop it counts in (10_state.md R25). -/
def PollInv (s : State) : Prop :=
  match s.phase, s.step with
  | .presence, .s1 => s.pollCnt.toNat < s.cfg.presencePolls.toNat
  | .presence, .s2 => 0 < s.pollCnt.toNat ∧ s.pollCnt.toNat < s.cfg.presencePolls.toNat
  | .bitRead, .s4 => s.cfg.sampleMode = .threshold → s.pollCnt.toNat < s.cfg.bitPollMax.toNat
  | .bitRead, .s5 => 0 < s.pollCnt.toNat ∧ s.pollCnt.toNat < s.cfg.bitPollMax.toNat
  | _, _ => True

/-- The sum modulo 256 of the data bytes among the first `n` bytes of a frame (10_state.md R28). -/
def dataSum (f : Vector Byte 5) (n : Nat) : Byte :=
  (if 0 < n then f[0] else 0) + (if 1 < n then f[1] else 0) + (if 2 < n then f[2] else 0) + (if 3 < n then f[3] else 0)

/-- CSUM and CUR during a transaction (10_state.md R26, R28; 43_frame_checksum_read.md R161, R162). -/
structure WorkInv (s : State) : Prop where
  sum : s.busy = true → s.csum = dataSum s.frame s.byteIdx.toNat
  valid : s.phase = .decode → s.csum = s.frame[4]
  cur : s.busy = true →
    s.cur.toNat < 2 ^ (if s.phase = .bitRead ∧ s.step = .s6 then s.bitIdx.toNat + 1 else s.bitIdx.toNat)

/-- The result registers (10_state.md R31, R34 to R36; 60_exceptions.md R197). -/
structure ResultInv (s : State) : Prop where
  faultZero : s.kind ≠ .busFault → s.fault = 0
  notDone : s.done = false → s.kind = .ok
  noPartial : ¬ (s.done = true ∧ s.kind = .ok) → s.payload = 0 ∧ s.temp = 0 ∧ s.rh = 0
  success : s.done = true → s.kind = .ok →
    s.payload = packPayload s.frame ∧ s.rh = s.frame[0] ∧ s.temp = signMagnitude s.frame[2] ∧
      dataSum s.frame 4 = s.frame[4]

/-- `P` of 70_reset_and_hazards.md R234. -/
def pollsAllowed (c : Cfg) : Nat := if c.presenceCheck then c.presencePolls.toNat else 0

/-- The most commands one slot issues (70_reset_and_hazards.md R234). -/
def slotCommands (c : Cfg) : Nat :=
  match c.sampleMode with
  | .level => 6
  | .threshold => 2 * c.bitPollMax.toNat + 4

/-- The most commands a transaction issues: `244 + 2P` or `164 + 2P + 80M` (70_reset_and_hazards.md R234). -/
def transactionCommands (c : Cfg) : Nat :=
  match c.sampleMode with
  | .level => 244 + 2 * pollsAllowed c
  | .threshold => 164 + 2 * pollsAllowed c + 80 * c.bitPollMax.toNat

/-- The most commands issued before step `k` of a slot, within the slot. -/
def slotProgress (s : State) : Nat :=
  match s.step with
  | .s0 => 0
  | .s1 => 1
  | .s2 => 2
  | .s3 => 3
  | .s4 => if s.cfg.sampleMode = .threshold then 4 + 2 * s.pollCnt.toNat else 4
  | .s5 => 3 + 2 * s.pollCnt.toNat
  | .s6 => slotCommands s.cfg - 1

/-- The most commands issued before the present position (70_reset_and_hazards.md R234). -/
def commandsBefore (s : State) : Nat :=
  match s.phase with
  | .idle => transactionCommands s.cfg
  | .reset => match s.step with
    | .s0 => 0
    | .s1 => 1
    | _ => 2
  | .presence => match s.step with
    | .s0 => 3
    | .s1 => 4 + 2 * s.pollCnt.toNat
    | _ => 3 + 2 * s.pollCnt.toNat
  | .postReset => 3 + 2 * pollsAllowed s.cfg
  | .bitRead =>
    4 + 2 * pollsAllowed s.cfg + slotCommands s.cfg * (8 * s.byteIdx.toNat + s.bitIdx.toNat) + slotProgress s
  | .checksum => 4 + 2 * pollsAllowed s.cfg + 40 * slotCommands s.cfg
  | .decode => 4 + 2 * pollsAllowed s.cfg + 40 * slotCommands s.cfg

/-- The trace, which is that of one transaction (log 9), is no longer than the position allows (70_reset_and_hazards.md R234). -/
def LengthInv (s : State) : Prop := s.trace.length ≤ commandsBefore s

/-- The invariant of the machine, for a legal `cfg` (00_scope.md R6). -/
structure StateInv (s : State) : Prop where
  legal : cfgLegal s.cfg = true
  position : PositionInv s
  line : LineInv s
  poll : PollInv s
  work : WorkInv s
  result : ResultInv s
  length : LengthInv s

/-- The machine after reset under `cfg`, before an environment and a host that will do what the three lists say. -/
def initial (c : Cfg) (bus delay : List Reply) (host : List HostEvent) : State :=
  { State.afterReset c with bus := bus, delay := delay, host := host }

/-- A state some run from reset reaches, under some legal configuration, environment and host. -/
def Reachable (s : State) : Prop :=
  ∃ (c : Cfg) (bus delay : List Reply) (host : List HostEvent) (n : Nat),
    cfgLegal c = true ∧ Sys2Proof.core.run n (initial c bus delay host) = .next s

/-- The Bus Line answers every command (70_reset_and_hazards.md R236). -/
def busAnswers (s : State) : Prop := ∀ a ∈ s.bus, a ≠ .silent

/-- The Delay Provider answers every command, with `Ok` (40_capability_ops.md R107). -/
def delaysAnswered (s : State) : Prop := ∀ a ∈ s.delay, ∃ r, a = .word r ∧ rspFail r = false

/-- The Bus Line answers the next command with `r`, which is no failure. -/
abbrev LineSays (s : State) (r : RspWord) : Prop := s.busReply = .word r ∧ rspFail r = false

/-- The Bus Line answers the next command with the failure `r`. -/
abbrev LineFails (s : State) (r : RspWord) : Prop := s.busReply = .word r ∧ rspFail r = true

/-- The Delay Provider answers the next wait with `r`, which is no failure. -/
abbrev WaitEnds (s : State) (r : RspWord) : Prop := s.delayReply = .word r ∧ rspFail r = false

/-- The next step is the engine's, taken from `u`: the host schedules nothing, or lets it. -/
def EngineMoves (s u : State) : Prop :=
  (s.host = [] ∧ u = s) ∨ ∃ rest, s.host = .run :: rest ∧ u = { s with host := rest }

/-- The next reply to a command of this kind. -/
def replyTo (i : Instr) (s : State) : Reply := if toBusLine i then s.busReply else s.delayReply

/-- What the host can see of a transaction and of its result, LINE_DIR apart, with the commands issued (10_state.md R38). -/
def SameOutcome (s t : State) : Prop :=
  s.busy = t.busy ∧ s.done = t.done ∧ s.kind = t.kind ∧ s.fault = t.fault ∧ s.payload = t.payload ∧
    s.temp = t.temp ∧ s.rh = t.rh ∧ s.trace = t.trace

end Sys2Proof.Machine
end

