-- ==== Sys2Proof/Certificates/Slice0/Obligations.lean ====
section
/-! DEFINITION. The statements for the provers, from the numbered rules of spec/. Each docstring says which rule it
formalises; the model's own choices among them are named with their log entry. -/

open Sys2Proof Sys2Proof.Machine

/-! ## Encoding -/

/-- A few words written out from the tables of 30_encoding.md R73, R77, R90 decode to the instruction they stand for, and a
few reserved ones to none (95_test_vectors.md 2.1). -/
def Obligations.TableWordsDecodeToTheirRows : Prop :=
  decodeTableWord 40 0x100000000 = some .driveLow ∧ decodeTableWord 40 0x200000000 = some .release ∧
  decodeTableWord 40 0x300000000 = some .sample ∧ decodeTableWord 40 0x40000001E = some (.delayUs 30) ∧
  decodeTableWord 40 0x5000003E8 = some (.delayMs 1000) ∧ decodeTableWord 32 0xFFFFFFFF = some (.start 0xFFFFFFFF) ∧
  decodeTableWord 8 0b00001 = some .reset ∧ decodeTableWord 8 0b10110 = some .decode ∧
  decodeTableWord 8 0b00100 = some .bitReadL ∧ decodeTableWord 8 0b10100 = some .bitReadT ∧
  decodeTableWord 40 0x000000000 = none ∧ decodeTableWord 40 0x600000000 = none ∧
  decodeTableWord 40 0x300000001 = none ∧ decodeTableWord 32 0xFFFFFFFE = none

/-- Decode and encode agree on every well-formed instruction, every operand of the delays and every START word included
(30_encoding.md R72, R73, R77, R90). -/
def Obligations.DecodingAnEncodedInstructionGivesItBack : Prop :=
  ∀ i : Instr, i.wellFormed = true → decode (encode i) = .ok i

/-- The other direction: a command word and a CTRL word have one meaning each and are what the encoder writes for it; a
sequencer key is, up to the mode bit where R90 makes it a don't-care. -/
def Obligations.EncodingADecodedWordGivesItBack : Prop :=
  (∀ w i, decodeCommand w = .ok i → encode i = .cw w) ∧
  (∀ v i, decodeHostWord v = .ok i → encode i = .host v) ∧
  (∀ k i, decodePhaseKey k = .ok i → ∃ k', encode i = .phase k' ∧ keyPhase k' = keyPhase k ∧ (keyPhase k = 4 → k' = k))

/-- The decoder is the table's masks and matches (30_encoding.md R90: "compute `word & mask` and compare with `match`"). -/
def Obligations.DecoderIsTheTablesMasksAndMatches : Prop :=
  (∀ w : CmdWord,
    (decodeCommand w = .ok .driveLow ↔ w &&& 0xFFFFFFFFF#36 = 0x100000000#36) ∧
    (decodeCommand w = .ok .release ↔ w &&& 0xFFFFFFFFF#36 = 0x200000000#36) ∧
    (decodeCommand w = .ok .sample ↔ w &&& 0xFFFFFFFFF#36 = 0x300000000#36) ∧
    ((∃ n, decodeCommand w = .ok (.delayUs n)) ↔ w &&& 0xF00000000#36 = 0x400000000#36) ∧
    ((∃ n, decodeCommand w = .ok (.delayMs n)) ↔ w &&& 0xF00000000#36 = 0x500000000#36)) ∧
  (∀ v : HostWord, decodeHostWord v = .ok (.start v) ↔ v &&& 1#32 = 1#32) ∧
  (∀ k : PhaseKey,
    (decodePhaseKey k = .ok .reset ↔ k &&& 0x0F#5 = 0x01#5) ∧
    (decodePhaseKey k = .ok .presence ↔ k &&& 0x0F#5 = 0x02#5) ∧
    (decodePhaseKey k = .ok .postReset ↔ k &&& 0x0F#5 = 0x03#5) ∧
    (decodePhaseKey k = .ok .bitReadL ↔ k &&& 0x1F#5 = 0x04#5) ∧
    (decodePhaseKey k = .ok .bitReadT ↔ k &&& 0x1F#5 = 0x14#5) ∧
    (decodePhaseKey k = .ok .checksumValidate ↔ k &&& 0x0F#5 = 0x05#5) ∧
    (decodePhaseKey k = .ok .decode ↔ k &&& 0x0F#5 = 0x06#5))

/-- Reserved command words (30_encoding.md R80, R81): rejected by the decoder and in a trace, never issued by the engine;
every N of the delays is legal. -/
def Obligations.ReservedCommandWordsAreRejectedAndNeverIssued : Prop :=
  (∀ w : CmdWord, (cmdOp w).toNat = 0 ∨ 6 ≤ (cmdOp w).toNat →
    decodeCommand w = .error (.reservedOpcode (cmdOp w)) ∧ ∀ a, traceLine ⟨w, a⟩ = none) ∧
  (∀ w : CmdWord, 1 ≤ (cmdOp w).toNat → (cmdOp w).toNat ≤ 3 → cmdOperand w ≠ 0 →
    decodeCommand w = .error (.operandNotZero (cmdOp w) (cmdOperand w)) ∧ ∀ a, traceLine ⟨w, a⟩ = none) ∧
  (∀ n, decodeCommand (cmdWord 0x4#4 n) = .ok (.delayUs n) ∧ decodeCommand (cmdWord 0x5#4 n) = .ok (.delayMs n)) ∧
  (∀ (s : State) (t : State), step s = .next t → ∀ e ∈ t.trace, e ∈ s.trace ∨ ∃ i, decodeCommand e.word = .ok i)

/-- Response words (30_encoding.md R75): how each is read against the command it answers; that the engine's step depends on
nothing else of it; the conforming words. -/
def Obligations.ResponsesAreReadAndIgnoredFieldsDoNotMatter : Prop :=
  (∀ r : RspWord,
    decodeResponse .driveLow r = some (if r[9] then .fail (r.extractLsb' 0 8) else .ok) ∧
    decodeResponse .release r = some (if r[9] then .fail (r.extractLsb' 0 8) else .ok) ∧
    decodeResponse .sample r = some (if r[9] then .fail (r.extractLsb' 0 8) else .level r[8]) ∧
    ∀ n, r[9] = false → decodeResponse (.delayUs n) r = some .ok ∧ decodeResponse (.delayMs n) r = some .ok) ∧
  (∀ (s : State) c r r' rest, s.busy = true → s.host = [] → s.command = some c → decodeResponse c r = decodeResponse c r' →
    (toBusLine c = true → step { s with bus := .word r :: rest } = step { s with bus := .word r' :: rest }) ∧
    (toBusLine c = false → step { s with delay := .word r :: rest } = step { s with delay := .word r' :: rest })) ∧
  (encodeResponse .ok = 0x000#10 ∧ encodeResponse (.level false) = 0x000#10 ∧ encodeResponse (.level true) = 0x100#10 ∧
    ∀ e : Byte, encodeResponse (.fail e) = 0x200#10 + e.zeroExtend 10 ∧
      decodeResponse .driveLow (encodeResponse (.fail e)) = some (.fail e))

/-- A FAIL response to a delay has no meaning (30_encoding.md R82, 93_implementation_defined.md U2): both delays, and every
position at which the engine waits, are refused. -/
def Obligations.FailResponseToADelayIsRefused : Prop :=
  ∀ (s : State) r, s.delayReply = .word r → r[9] = true →
    (∀ n, exec (.delayUs n) s = .refused .delayFailed ∧ exec (.delayMs n) s = .refused .delayFailed) ∧
    (∀ c, s.busy = true → s.host = [] → stepInRange s.cfg.sampleMode s.phase s.step = true → s.command = some c →
      toBusLine c = false → step s = .refused .delayFailed)

/-! ## Capability commands: results, frames, completion -/

/-- DRIVE_LOW (40_capability_ops.md R100, R106): the whole next state, for either answer. -/
def Obligations.DriveLowResult : Prop :=
  ∀ (s : State) r, s.busReply = .word r →
    (r[9] = false → exec .driveLow s = .next { s.dropBus with
      lineDir := .low, trace := s.trace ++ [⟨0x100000000#36, .ok⟩] }) ∧
    (r[9] = true → exec .driveLow s = .next { s.dropBus with
      lineDir := .unknown, trace := s.trace ++ [⟨0x100000000#36, .fail (r.extractLsb' 0 8)⟩]
      kind := .busFault, fault := r.extractLsb' 0 8, payload := 0, temp := 0, rh := 0
      done := true, busy := false, phase := .idle, step := .s0 })

/-- RELEASE (40_capability_ops.md R101, R106): the whole next state, for either answer. -/
def Obligations.ReleaseResult : Prop :=
  ∀ (s : State) r, s.busReply = .word r →
    (r[9] = false → exec .release s = .next { s.dropBus with
      lineDir := .released, trace := s.trace ++ [⟨0x200000000#36, .ok⟩] }) ∧
    (r[9] = true → exec .release s = .next { s.dropBus with
      lineDir := .unknown, trace := s.trace ++ [⟨0x200000000#36, .fail (r.extractLsb' 0 8)⟩]
      kind := .busFault, fault := r.extractLsb' 0 8, payload := 0, temp := 0, rh := 0
      done := true, busy := false, phase := .idle, step := .s0 })

/-- SAMPLE (40_capability_ops.md R102, R106): the whole next state, for either answer; LINE_DIR is unchanged in both. -/
def Obligations.SampleResult : Prop :=
  ∀ (s : State) r, s.busReply = .word r →
    (r[9] = false → exec .sample s = .next { s.dropBus with trace := s.trace ++ [⟨0x300000000#36, .level r[8]⟩] }) ∧
    (r[9] = true → exec .sample s = .next { s.dropBus with
      trace := s.trace ++ [⟨0x300000000#36, .fail (r.extractLsb' 0 8)⟩]
      kind := .busFault, fault := r.extractLsb' 0 8, payload := 0, temp := 0, rh := 0
      done := true, busy := false, phase := .idle, step := .s0 })

/-- DELAY_US n and DELAY_MS n (40_capability_ops.md R103, R104): no state of the engine changes; the command, with its operand
unchanged (30_encoding.md R74), is in the trace. -/
def Obligations.DelaysChangeNoEngineState : Prop :=
  ∀ (s : State) r n, s.delayReply = .word r → r[9] = false →
    exec (.delayUs n) s = .next { s with delay := s.delay.tail, trace := s.trace ++ [⟨0x4#4 ++ n, .ok⟩] } ∧
    exec (.delayMs n) s = .next { s with delay := s.delay.tail, trace := s.trace ++ [⟨0x5#4 ++ n, .ok⟩] }

/-- What taking an answer uses up: the Bus Line's next one, and nothing else of the state (the model's own fields, log 3). -/
def Obligations.TakingAnAnswerChangesNothingElse : Prop :=
  ∀ s : State,
    (∀ a rest, s.bus = a :: rest → s.busReply = a ∧ s.dropBus = { s with bus := rest }) ∧
    (s.bus = [] → s.busReply = .word (Config.freeBusResponse s.freeCount) ∧
      s.dropBus = { s with freeCount := s.freeCount + 1 }) ∧
    (∀ a rest, s.delay = a :: rest → s.delayReply = a) ∧ (s.delay = [] → s.delayReply = .word 0)

/-- A command that is not answered (93_implementation_defined.md U9): the command, and the engine at its position, stay. -/
def Obligations.AnUnansweredCommandLeavesTheEngineWhereItIs : Prop :=
  ∀ (s : State) c, toBusLine c = true ∨ (∃ n, c = .delayUs n ∨ c = .delayMs n) → replyTo c s = .silent →
    exec c s = .next s ∧
    (cfgLegal s.cfg = true → s.busy = true → s.host = [] → stepInRange s.cfg.sampleMode s.phase s.step = true →
      s.command = some c → step s = .next s)

/-! ## Sequencer routines: results, frames, completion -/

/-- RESET (41_reset_presence.md R120): the whole next state of each step, and of its failures; at any other STEP it is refused
(10_state.md R21, 93_implementation_defined.md U11). -/
def Obligations.ResetRoutineResult : Prop :=
  (∀ (s : State) r, s.step = .s0 → LineSays s r → exec .reset s = .next { s.dropBus with
    lineDir := .low, trace := s.trace ++ [⟨0x100000000#36, .ok⟩], phase := .reset, step := .s1 }) ∧
  (∀ (s : State) r, s.step = .s1 → WaitEnds s r → exec .reset s = .next { s.dropDelay with
    trace := s.trace ++ [delayLine s.cfg.tResetLow], phase := .reset, step := .s2 }) ∧
  (∀ (s : State) r, s.step = .s2 → LineSays s r → exec .reset s = .next { s.dropBus with
    lineDir := .released, trace := s.trace ++ [⟨0x200000000#36, .ok⟩]
    phase := if s.cfg.presenceCheck then .presence else .postReset, step := .s0 }) ∧
  (∀ (s : State) r, s.step = .s0 → LineFails s r → exec .reset s = exec .driveLow s) ∧
  (∀ (s : State) r, s.step = .s2 → LineFails s r → exec .reset s = exec .release s) ∧
  (∀ s : State, s.step ≠ .s0 → s.step ≠ .s1 → s.step ≠ .s2 → exec .reset s = .refused .stepNeverTaken)

/-- PRESENCE (41_reset_presence.md R121): the whole next state of each step: a low sample ends the poll, a high one is
counted, the last allowed one is Timeout; a failed SAMPLE is BusFault and is not counted (60_exceptions.md R201). Where
PRESENCE_POLLS is 0, S1 is refused (93_implementation_defined.md U16), and at a STEP above 2 the routine is (U11). -/
def Obligations.PresenceRoutineResult : Prop :=
  (∀ (s : State) r, s.step = .s0 → WaitEnds s r → exec .presence s = .next { s.dropDelay with
    trace := s.trace ++ [delayLine s.cfg.tPresenceDelay], pollCnt := 0, phase := .presence, step := .s1 }) ∧
  (∀ (s : State) r, s.step = .s1 → 0 < s.cfg.presencePolls.toNat → LineSays s r → r[8] = false →
    exec .presence s = .next { s.dropBus with
      trace := s.trace ++ [⟨0x300000000#36, .level false⟩], phase := .postReset, step := .s0 }) ∧
  (∀ (s : State) r, s.step = .s1 → LineSays s r → r[8] = true → s.pollCnt.toNat + 1 < s.cfg.presencePolls.toNat →
    exec .presence s = .next { s.dropBus with
      trace := s.trace ++ [⟨0x300000000#36, .level true⟩], pollCnt := s.pollCnt + 1, phase := .presence, step := .s2 }) ∧
  (∀ (s : State) r, s.step = .s1 → LineSays s r → r[8] = true → s.pollCnt.toNat + 1 = s.cfg.presencePolls.toNat →
    exec .presence s = .next { s.dropBus with
      trace := s.trace ++ [⟨0x300000000#36, .level true⟩], pollCnt := s.pollCnt + 1
      kind := .timeout, fault := 0, payload := 0, temp := 0, rh := 0
      done := true, busy := false, phase := .idle, step := .s0 }) ∧
  (∀ (s : State) r, s.step = .s1 → 0 < s.cfg.presencePolls.toNat → LineFails s r → exec .presence s = exec .sample s) ∧
  (∀ (s : State) r, s.step = .s2 → WaitEnds s r → exec .presence s = .next { s.dropDelay with
    trace := s.trace ++ [delayLine s.cfg.tPresencePoll], phase := .presence, step := .s1 }) ∧
  (∀ s : State, s.step = .s1 → s.cfg.presencePolls = 0 → exec .presence s = .refused .illegalConfiguration) ∧
  (∀ s : State, s.step ≠ .s0 → s.step ≠ .s1 → s.step ≠ .s2 → exec .presence s = .refused .stepNeverTaken)

/-- POST_RESET (41_reset_presence.md R122): one wait; BYTE_IDX, BIT_IDX and CUR are as START left them; at any STEP but 0 it is
refused (10_state.md R21, 93_implementation_defined.md U11). -/
def Obligations.PostResetRoutineResult : Prop :=
  (∀ (s : State) r, s.step = .s0 → WaitEnds s r → exec .postReset s = .next { s.dropDelay with
    trace := s.trace ++ [delayLine s.cfg.tPostReset], phase := .bitRead, step := .s0 }) ∧
  (∀ s : State, s.step ≠ .s0 → exec .postReset s = .refused .stepNeverTaken)

/-- The steps of a slot that are alike in both modes (42_bit_byte_read.md R140, R141: S0, S1, S2), with their failures. -/
def Obligations.SlotOpeningResult : Prop :=
  ∀ i, i = .bitReadL ∨ i = .bitReadT →
    (∀ (s : State) r, s.step = .s0 → LineSays s r → exec i s = .next { s.dropBus with
      lineDir := .low, trace := s.trace ++ [⟨0x100000000#36, .ok⟩], phase := .bitRead, step := .s1 }) ∧
    (∀ (s : State) r, s.step = .s1 → WaitEnds s r → exec i s = .next { s.dropDelay with
      trace := s.trace ++ [delayLine s.cfg.tSlotLow], phase := .bitRead, step := .s2 }) ∧
    (∀ (s : State) r, s.step = .s2 → LineSays s r → exec i s = .next { s.dropBus with
      lineDir := .released, trace := s.trace ++ [⟨0x200000000#36, .ok⟩], phase := .bitRead, step := .s3 }) ∧
    (∀ (s : State) r, s.step = .s0 → LineFails s r → exec i s = exec .driveLow s) ∧
    (∀ (s : State) r, s.step = .s2 → LineFails s r → exec i s = exec .release s)

/-- BIT_READ in LEVEL mode, S3 and S4 (42_bit_byte_read.md R140): the sampled level is shifted into CUR; S5 is not used (a
position never taken, 93_implementation_defined.md U11). -/
def Obligations.LevelSampleResult : Prop :=
  (∀ (s : State) r, s.step = .s3 → WaitEnds s r → exec .bitReadL s = .next { s.dropDelay with
    trace := s.trace ++ [delayLine s.cfg.tSettle], phase := .bitRead, step := .s4 }) ∧
  (∀ (s : State) r, s.step = .s4 → LineSays s r → exec .bitReadL s = .next { s.dropBus with
    trace := s.trace ++ [⟨0x300000000#36, .level r[8]⟩]
    cur := s.cur.extractLsb' 0 7 ++ BitVec.ofBool r[8], phase := .bitRead, step := .s6 }) ∧
  (∀ (s : State) r, s.step = .s4 → LineFails s r → exec .bitReadL s = exec .sample s) ∧
  (∀ (s : State), s.step = .s5 → exec .bitReadL s = .refused .stepNeverTaken)

/-- BIT_READ in THRESHOLD mode, S3, S4 and S5 (42_bit_byte_read.md R141): low samples are counted; a high one gives the bit
`POLL_CNT < BIT_THRESHOLD`; the last allowed low one is Timeout; a failed SAMPLE is not counted. Where BIT_POLL_MAX is 0 or
BIT_THRESHOLD is not in 1..BIT_POLL_MAX, S4 is refused (93_implementation_defined.md U16). -/
def Obligations.ThresholdSampleResult : Prop :=
  (∀ (s : State) r, s.step = .s3 → WaitEnds s r → exec .bitReadT s = .next { s.dropDelay with
    trace := s.trace ++ [delayLine s.cfg.tSettle], pollCnt := 0, phase := .bitRead, step := .s4 }) ∧
  (∀ (s : State) r, bitLimitsLegal s.cfg = true → s.step = .s4 → LineSays s r → r[8] = true →
    exec .bitReadT s = .next { s.dropBus with
      trace := s.trace ++ [⟨0x300000000#36, .level true⟩]
      cur := s.cur.extractLsb' 0 7 ++ BitVec.ofBool (decide (s.pollCnt.toNat < s.cfg.bitThreshold.toNat))
      phase := .bitRead, step := .s6 }) ∧
  (∀ (s : State) r, bitLimitsLegal s.cfg = true → s.step = .s4 → LineSays s r → r[8] = false →
    s.pollCnt.toNat + 1 < s.cfg.bitPollMax.toNat → exec .bitReadT s = .next { s.dropBus with
      trace := s.trace ++ [⟨0x300000000#36, .level false⟩], pollCnt := s.pollCnt + 1, phase := .bitRead, step := .s5 }) ∧
  (∀ (s : State) r, bitLimitsLegal s.cfg = true → s.step = .s4 → LineSays s r → r[8] = false →
    s.pollCnt.toNat + 1 = s.cfg.bitPollMax.toNat → exec .bitReadT s = .next { s.dropBus with
      trace := s.trace ++ [⟨0x300000000#36, .level false⟩], pollCnt := s.pollCnt + 1
      kind := .timeout, fault := 0, payload := 0, temp := 0, rh := 0
      done := true, busy := false, phase := .idle, step := .s0 }) ∧
  (∀ (s : State) r, bitLimitsLegal s.cfg = true → s.step = .s4 → LineFails s r → exec .bitReadT s = exec .sample s) ∧
  (∀ (s : State) r, s.step = .s5 → WaitEnds s r → exec .bitReadT s = .next { s.dropDelay with
    trace := s.trace ++ [delayLine s.cfg.tBitPoll], phase := .bitRead, step := .s4 }) ∧
  (∀ s : State, s.step = .s4 →
    s.cfg.bitPollMax = 0 ∨ s.cfg.bitThreshold = 0 ∨ s.cfg.bitPollMax.toNat < s.cfg.bitThreshold.toNat →
    exec .bitReadT s = .refused .illegalConfiguration)

/-- Slot end and byte end (42_bit_byte_read.md R142, R143), in both modes: the whole next state of S6, and what byte end
makes of every byte of FRAME; a byte end with BYTE_IDX above 4 is refused (10_state.md R23, 93_implementation_defined.md U11). -/
def Obligations.SlotEndAndByteEndResult : Prop :=
  (∀ i (s : State) r, i = .bitReadL ∨ i = .bitReadT → s.step = .s6 → WaitEnds s r →
    (s.bitIdx.toNat < 7 → exec i s = .next { s.dropDelay with
      trace := s.trace ++ [delayLine s.cfg.tRecovery], bitIdx := s.bitIdx + 1, phase := .bitRead, step := .s0 }) ∧
    (s.bitIdx.toNat = 7 → s.byteIdx.toNat < 4 → exec i s = .next { s.dropDelay with
      trace := s.trace ++ [delayLine s.cfg.tRecovery]
      frame := storeFrame s.frame s.byteIdx s.cur, csum := s.csum + s.cur
      byteIdx := s.byteIdx + 1, bitIdx := 0, cur := 0, phase := .bitRead, step := .s0 }) ∧
    (s.bitIdx.toNat = 7 → s.byteIdx.toNat = 4 → exec i s = .next { s.dropDelay with
      trace := s.trace ++ [delayLine s.cfg.tRecovery]
      frame := storeFrame s.frame s.byteIdx s.cur
      byteIdx := s.byteIdx + 1, bitIdx := 0, cur := 0, phase := .checksum, step := .s0 }) ∧
    (s.bitIdx.toNat = 7 → 4 < s.byteIdx.toNat → exec i s = .refused .byteIdxNeverTaken)) ∧
  (∀ (f : Vector Byte 5) (k : BitVec 3) (b : Byte) (j : Fin 5),
    (storeFrame f k b)[j] = if j.val = k.toNat then b else f[j])

/-- CHECKSUM_VALIDATE (43_frame_checksum_read.md R162): equal goes on to DECODE and changes SEQ alone; different is failure
completion with ChecksumMismatch (R193, R196); at any STEP but 0 it is refused (10_state.md R21, U11). -/
def Obligations.ChecksumValidateResult : Prop :=
  (∀ (s : State), s.step = .s0 →
    (s.csum = s.frame[4] → exec .checksumValidate s = .next { s with phase := .decode, step := .s0 }) ∧
    (s.csum ≠ s.frame[4] → exec .checksumValidate s = .next { s with
      kind := .checksumMismatch, fault := 0, payload := 0, temp := 0, rh := 0
      done := true, busy := false, phase := .idle, step := .s0 })) ∧
  (∀ s : State, s.step ≠ .s0 → exec .checksumValidate s = .refused .stepNeverTaken)

/-- DECODE with success completion (44_reading_decoder.md R180 to R183, 43_frame_checksum_read.md R167): the whole next state,
in every state at S0; at any other STEP it is refused (10_state.md R21, 93_implementation_defined.md U11). -/
def Obligations.DecodeResult : Prop :=
  (∀ (s : State), s.step = .s0 → exec .decode s = .next { s with
    payload := s.frame[0] ++ s.frame[1] ++ s.frame[2] ++ s.frame[3]
    rh := s.frame[0]
    temp := if s.frame[2][7] then -((s.frame[2].extractLsb' 0 7).zeroExtend 8) else (s.frame[2].extractLsb' 0 7).zeroExtend 8
    kind := .ok, fault := 0, done := true, busy := false, phase := .idle, step := .s0 }) ∧
  (∀ s : State, s.step ≠ .s0 → exec .decode s = .refused .stepNeverTaken)

/-- Temperature (44_reading_decoder.md R182): DECODE puts into TEMP the sign-magnitude reading of FRAME[2], which, as two's
complement, is `m` or `-m` for every byte; it stays in -127..127 and is never 0x80; negative zero is 0; the spec's examples. -/
def Obligations.TemperatureIsSignTimesMagnitude : Prop :=
  (∀ b : Byte,
    (signMagnitude b).toInt = (if b[7] then -((b.toNat % 128 : Nat) : Int) else ((b.toNat % 128 : Nat) : Int)) ∧
    (b[7] = true → (signMagnitude b).toNat = (256 - b.toNat % 128) % 256) ∧ signMagnitude b ≠ 0x80) ∧
  (∀ s : State, s.step = .s0 → ∃ t, exec .decode s = .next t ∧ t.temp = signMagnitude s.frame[2]) ∧
  signMagnitude 0x80 = 0x00 ∧ signMagnitude 0xFF = 0x81 ∧ signMagnitude 0x7F = 0x7F ∧
  signMagnitude 0x1B = 27 ∧ signMagnitude 0x83 = 0xFD

/-- START (43_frame_checksum_read.md R165, 10_state.md R32): with bit 0 set and BUSY = 0 the listed writes in one step, FRAME
and LINE_DIR unchanged, whatever bits 31:1 are; otherwise no effect. The trace begins anew (the model's choice, log 9). -/
def Obligations.StartResult : Prop :=
  ∀ (v : HostWord) (s : State),
    (v[0] = true → s.busy = false → exec (.start v) s = .next { s with
      busy := true, done := false, kind := .ok, fault := 0, payload := 0, temp := 0, rh := 0
      byteIdx := 0, bitIdx := 0, cur := 0, csum := 0, pollCnt := 0, phase := .reset, step := .s0, trace := [] }) ∧
    (v[0] = false ∨ s.busy = true → exec (.start v) s = .next s)

/-- Failure completion (60_exceptions.md R196): the whole effect of `raise`, nothing saved elsewhere. -/
def Obligations.RaiseIsFailureCompletion : Prop :=
  ∀ (s : State) (x : Err), s.raise x = { s with
    kind := (match x with | .busFault _ => .busFault | .timeout => .timeout | .checksumMismatch => .checksumMismatch)
    fault := (match x with | .busFault e => e | .timeout => 0 | .checksumMismatch => 0)
    payload := 0, temp := 0, rh := 0, done := true, busy := false, phase := .idle, step := .s0 }

/-! ## The step -/

/-- A step runs the decoded instruction: while BUSY = 1 the routine whose key is `(cfg.SAMPLE_MODE, PHASE)` (10_state.md R21,
30_encoding.md R90), past the host's turn; and START when the host writes CTRL with bit 0 set (30_encoding.md R77). -/
def Obligations.AStepRunsTheDecodedInstruction : Prop :=
  (∀ (s : State) (u : State) i, EngineMoves s u → s.busy = true → s.phase ≠ .idle → decode (.phase (sequencerKey s)) = .ok i →
    step s = exec i u) ∧
  (∀ (s : State) (u : State), EngineMoves s u → s.busy = true →
    (s.phase = .reset → step s = exec .reset u) ∧ (s.phase = .presence → step s = exec .presence u) ∧
    (s.phase = .postReset → step s = exec .postReset u) ∧
    (s.phase = .bitRead → s.cfg.sampleMode = .level → step s = exec .bitReadL u) ∧
    (s.phase = .bitRead → s.cfg.sampleMode = .threshold → step s = exec .bitReadT u) ∧
    (s.phase = .checksum → step s = exec .checksumValidate u) ∧ (s.phase = .decode → step s = exec .decode u)) ∧
  (∀ (s : State) v rest, s.host = .store s.cfg.oweBase 4 v :: rest → v[0] = true →
    step s = exec (.start v) { s with host := rest })

/-- The capability port (20_memory.md R56, 43_frame_checksum_read.md R166): a step of the engine issues the one command its
position has, with the answer it got, or waits for that answer; at a position without a command it issues none. -/
def Obligations.AStepIssuesExactlyTheCommandOfItsPosition : Prop :=
  ∀ (s : State) (u : State) (t : State), EngineMoves s u → s.busy = true → step s = .next t →
    (s.command = none → t.trace = s.trace) ∧
    (∀ c, s.command = some c →
      (replyTo c s = .silent ∧ t = u) ∨
      (∃ r a, replyTo c s = .word r ∧ decodeResponse c r = some a ∧ t.trace = s.trace ++ [⟨portWord c, a⟩]))

/-- While BUSY = 0 the engine issues nothing and takes no answer (20_memory.md R55, R56; 60_exceptions.md R205), whatever the
host does; START begins an empty trace (log 9), and the reset input issues nothing either (70_reset_and_hazards.md R221). -/
def Obligations.NoCommandIsIssuedWhileIdle : Prop :=
  ∀ (s : State) (t : State), s.busy = false → step s = .next t →
    (t.trace = s.trace ∨ (t.trace = [] ∧ t.busy = true)) ∧ t.bus = s.bus ∧ t.delay = s.delay ∧ t.freeCount = s.freeCount

/-- After reset the engine does nothing until START, and the first command after START is DRIVE_LOW (70_reset_and_hazards.md
R222; 43_frame_checksum_read.md R165). -/
def Obligations.IdleUntilStartThenDriveLow : Prop :=
  (∀ (s : State) (u : State), EngineMoves s u → s.busy = false → step s = .next u) ∧
  (∀ (s : State) v, s.busy = false → s.host = [.store s.cfg.oweBase 4 v] → v[0] = true →
    ∃ t, step s = .next t ∧ t.busy = true ∧ t.trace = [] ∧ t.command = some .driveLow)

/-- An instruction placed where the step fetches its next one is what the next step runs (the host's entry, log 13): a
routine and START as such, a command as the one entry the next step adds to the trace. -/
def Obligations.APlacedInstructionIsTheNextOneRun : Prop :=
  (∀ (s : State) k i, decodePhaseKey k = .ok i →
    step (s.withFetchWord 8 k.toNat) = exec i { s.withFetchWord 8 k.toNat with host := s.host }) ∧
  (∀ (s : State) v, v[0] = true → step (s.withFetchWord 32 v.toNat) = exec (.start v) s) ∧
  (∀ (s : State) w i (t : State), decodeCommand w = .ok i → step (s.withFetchWord 40 w.toNat) = .next t → replyTo i s ≠ .silent →
    ∃ a, t.trace = s.trace ++ [⟨w, a⟩])

/-! ## The host's side -/

/-- STATUS (10_state.md R33): its layout bit by bit, with the codes of LINE_DIR and KIND (R29, R31) and, written out, the values
of V-E31 to V-E38 (95_test_vectors.md); its reset value; that a read has no side effect on the block and returns it; that a
write is ignored. -/
def Obligations.StatusRegister : Prop :=
  (∀ s : State, readReg s .status =
    (0 : BitVec 26) ++ s.lineDir.code ++ s.kind.code ++ BitVec.ofBool s.done ++ BitVec.ofBool s.busy) ∧
  (∀ s : State, (readReg s .status)[0] = s.busy ∧ (readReg s .status)[1] = s.done ∧
    (readReg s .status).extractLsb' 2 2 = s.kind.code ∧ (readReg s .status).extractLsb' 4 2 = s.lineDir.code ∧
    (readReg s .status).extractLsb' 6 26 = 0) ∧
  (LineDir.released.code = 0 ∧ LineDir.low.code = 1 ∧ LineDir.unknown.code = 2 ∧ Kind.ok.code = 0 ∧ Kind.busFault.code = 1 ∧
    Kind.timeout.code = 2 ∧ Kind.checksumMismatch.code = 3) ∧
  (∀ s : State,
    let status := fun b d k l => readReg { s with busy := b, done := d, kind := k, lineDir := l } .status
    status true false .ok .released = 0x00000001#32 ∧ status true false .ok .low = 0x00000011#32 ∧
    status true false .ok .unknown = 0x00000021#32 ∧ status false true .ok .released = 0x00000002#32 ∧
    status false true .busFault .released = 0x00000006#32 ∧ status false true .busFault .unknown = 0x00000026#32 ∧
    status false true .timeout .released = 0x0000000A#32 ∧ status false true .checksumMismatch .released = 0x0000000E#32) ∧
  (∀ c, readReg (State.afterReset c) .status = 0x00000000#32) ∧
  (∀ (s : State) rest, s.host = .load (s.cfg.oweBase + 4) 4 :: rest →
    step s = .next { s with host := rest, hostData := some (readReg s .status) }) ∧
  (∀ (s : State) v rest, s.host = .store (s.cfg.oweBase + 4) 4 v :: rest → step s = .next { s with host := rest })

/-- A read at `OWE_BASE + 4*r` returns register `r` and changes nothing of the block, with the numbers of 20_memory.md R50: CTRL,
which reads 0 (10_state.md R32), STATUS, PAYLOAD, READING, FAULT, the last three laid out as R34 to R36 and 20_memory.md R58 say.
They are read straight from the state elements, in every state (log 19: in states no run reaches this differs from R34 to R36,
which speak of DONE and KIND). No write to registers 1 to 4 and no CTRL write with bit 0 clear has an effect (20_memory.md R53). -/
def Obligations.HostReadsAndIgnoredWrites : Prop :=
  (∀ (s : State) (k : Fin 5) r rest, regOfNumber k = .ok r → s.host = .load (s.cfg.oweBase + 4 * k) 4 :: rest →
    step s = .next { s with host := rest, hostData := some (readReg s r) }) ∧
  (∀ (s : State) rest (d : HostWord),
    (s.host = .load s.cfg.oweBase 4 :: rest ∧ d = 0) ∨
    (s.host = .load (s.cfg.oweBase + 4) 4 :: rest ∧
      d = (0 : BitVec 26) ++ s.lineDir.code ++ s.kind.code ++ BitVec.ofBool s.done ++ BitVec.ofBool s.busy) ∨
    (s.host = .load (s.cfg.oweBase + 8) 4 :: rest ∧ d = s.payload) ∨
    (s.host = .load (s.cfg.oweBase + 12) 4 :: rest ∧ d = (0 : BitVec 16) ++ s.temp ++ s.rh) ∨
    (s.host = .load (s.cfg.oweBase + 16) 4 :: rest ∧ d = (0 : BitVec 24) ++ s.fault) →
    step s = .next { s with host := rest, hostData := some d }) ∧
  (∀ (s : State) (k : Fin 5) v rest, k ≠ 0 ∨ v[0] = false → s.host = .store (s.cfg.oweBase + 4 * k) 4 v :: rest →
    step s = .next { s with host := rest }) ∧
  (∀ s : State, readReg s .ctrl = 0 ∧ readReg s .payload = s.payload ∧
    (readReg s .reading).extractLsb' 8 8 = s.temp ∧ (readReg s .reading).extractLsb' 0 8 = s.rh ∧
    (readReg s .reading).extractLsb' 16 16 = 0 ∧
    (readReg s .fault).extractLsb' 0 8 = s.fault ∧ (readReg s .fault).extractLsb' 8 24 = 0) ∧
  (∀ f : Vector Byte 5, (packPayload f).extractLsb' 24 8 = f[0] ∧ (packPayload f).extractLsb' 16 8 = f[1] ∧
    (packPayload f).extractLsb' 8 8 = f[2] ∧ (packPayload f).extractLsb' 0 8 = f[3])

/-- Host accesses without meaning are refused (20_memory.md R51, R52): a register number above 4, any other width, an address
that is not a register's first byte. That the place is measured from `OWE_BASE`, and that the width is named before the place
and the place before the number, is the model's choice (log 26); an address below `OWE_BASE` is not spoken of. -/
def Obligations.HostAccessesWithoutMeaningAreRefused : Prop :=
  ∀ (s : State) addr size v rest, s.host = .load addr size :: rest ∨ s.host = .store addr size v :: rest →
    (size ≠ 4 → step s = .refused .wrongAccessWidth) ∧
    (size = 4 → s.cfg.oweBase ≤ addr → (addr - s.cfg.oweBase) % 4 ≠ 0 → step s = .refused .misalignedAccess) ∧
    (∀ r, size = 4 → addr = s.cfg.oweBase + 4 * r → 4 < r → step s = .refused .noSuchRegister)

/-- The host cannot stop or disturb a transaction; only the reset input can (60_exceptions.md R203, 20_memory.md R53): any
other event of the host while BUSY = 1 leaves all of the block as it is. -/
def Obligations.TheHostCannotDisturbATransaction : Prop :=
  ∀ (s : State) (t : State) e rest, s.busy = true → s.host = e :: rest → e ≠ .run → e ≠ .resetInput → step s = .next t →
    t = { s with host := rest, hostData := t.hostData }

/-- The line and the timer are the host's while BUSY = 0 (60_exceptions.md R205) and the engine's alone while BUSY = 1, where
another's use is refused (70_reset_and_hazards.md R228, 93_implementation_defined.md U8). -/
def Obligations.ForeignUseOfTheLine : Prop :=
  ∀ (s : State) rest, s.host = .foreignUse :: rest →
    (s.busy = false → step s = .next { s with host := rest }) ∧ (s.busy = true → step s = .refused .exclusiveUseViolated)

/-- Reset (10_state.md R39, 70_reset_and_hazards.md R220): the reset state, and the reset input's effect in every state, busy or
not: each element of R20 at its reset value, `cfg` unchanged. -/
def Obligations.ResetState : Prop :=
  ∀ (s : State) (t : State) rest, (s.host = .resetInput :: rest ∧ step s = .next t) ∨ (∃ c, t = State.afterReset c ∧ s = t) →
    t.phase = .idle ∧ t.step = .s0 ∧ t.byteIdx = 0 ∧ t.bitIdx = 0 ∧ t.pollCnt = 0 ∧ t.cur = 0 ∧
    (∀ j : Fin 5, t.frame[j] = 0) ∧ t.csum = 0 ∧ t.lineDir = .released ∧ t.busy = false ∧ t.done = false ∧
    t.kind.code = 0 ∧ t.fault = 0 ∧ t.payload = 0 ∧ t.temp = 0 ∧ t.rh = 0 ∧ t.cfg = s.cfg

/-- The reset input always has its effect, issues no command (the trace stays, log 9) and discards the answer of a command that
was outstanding (70_reset_and_hazards.md R221, R223; log 15). -/
def Obligations.ResetInputCompletes : Prop :=
  ∀ (s : State) rest, s.host = .resetInput :: rest →
    ∃ t, step s = .next t ∧ t.done = false ∧ t.lineDir = .released ∧ t.host = rest ∧ t.trace = s.trace ∧
      (∀ c, s.busy = true → s.command = some c → replyTo c s = .silent →
        (toBusLine c = true → t.bus = s.bus.tail ∧ t.delay = s.delay) ∧
        (toBusLine c = false → t.delay = s.delay.tail ∧ t.bus = s.bus)) ∧
      (s.busy = false → t.bus = s.bus ∧ t.delay = s.delay)

/-! ## Invariants and whole-machine rules -/

/-- `cfg` is constant: no operation writes it (00_scope.md R6; 42_bit_byte_read.md R144: one strategy for all slots). -/
def Obligations.ConfigurationIsConstant : Prop := ∀ (s : State) (t : State), step s = .next t → t.cfg = s.cfg

/-- The invariant holds after reset, under every legal configuration and before every environment and host. -/
def Obligations.InvariantHoldsAfterReset : Prop :=
  StateInv State.reset ∧ ∀ c bus delay host, cfgLegal c = true → StateInv (initial c bus delay host)

/-- Every step keeps the invariant (10_state.md R21 to R31, 43_frame_checksum_read.md R161, 60_exceptions.md R195, R197, R199,
70_reset_and_hazards.md R234): position, LINE_DIR at it, counters, CSUM and CUR, the result registers, and the number of commands
in the trace, which is that of one transaction (log 9). -/
def Obligations.EveryStepKeepsTheInvariant : Prop := ∀ (s : State) (t : State), StateInv s → step s = .next t → StateInv t

/-- 60_exceptions.md R195, R199: in every state any run reaches in which BUSY = 0, LINE_DIR is RELEASED or UNKNOWN, never LOW; it
is RELEASED after reset, after a success and after every failure that is no BusFault. -/
def Obligations.TheLineIsNeverLowWhileIdle : Prop :=
  ∀ (s : State), Reachable s → s.busy = false →
    (s.lineDir = .released ∨ s.lineDir = .unknown) ∧ (s.kind ≠ .busFault → s.lineDir = .released)

/-- Line control (40_capability_ops.md R100, R101; 70_reset_and_hazards.md R233): DRIVE_LOW is only issued on a line not driven
low, SAMPLE only on a released one, RELEASE only on a low one; while the line is low every command is a delay or RELEASE, and
the one after the DRIVE_LOW that made it low is a delay. -/
def Obligations.LineCommandsFitTheLine : Prop :=
  ∀ (s : State), Reachable s → s.busy = true →
    (s.command = some .driveLow → s.lineDir ≠ .low) ∧ (s.command = some .sample → s.lineDir = .released) ∧
    (s.command = some .release → s.lineDir = .low) ∧
    (s.lineDir = .low → s.command = some .release ∨ ∃ d, s.command = some (waitInstr d)) ∧
    (∀ t : State, s.command = some .driveLow → step s = .next t → t.lineDir = .low → ∃ d, t.command = some (waitInstr d))

/-- BUSY and DONE are never both 1; KIND reads 0 while DONE = 0; FAULT is 0 unless KIND is BUS_FAULT; PAYLOAD and READING read
0 unless a transaction succeeded (10_state.md R30, R31, R34 to R36); while BUSY = 1 the host sees the live LINE_DIR and zeros
(20_memory.md R60). -/
def Obligations.ResultRegistersAreConsistent : Prop :=
  ∀ (s : State), Reachable s →
    ¬ (s.busy = true ∧ s.done = true) ∧ (s.done = false → s.kind.code = 0) ∧
    (¬ (s.done = true ∧ s.kind = .busFault) → readReg s .fault = 0) ∧
    (¬ (s.done = true ∧ s.kind = .ok) → readReg s .payload = 0 ∧ readReg s .reading = 0) ∧
    (s.busy = true → readReg s .status = (0 : BitVec 26) ++ s.lineDir.code ++ 0b0001#4 ∧
      readReg s .payload = 0 ∧ readReg s .reading = 0 ∧ readReg s .fault = 0)

/-- 60_exceptions.md R197: after a failure PAYLOAD and READING read 0, and no host register shows anything of FRAME. -/
def Obligations.AFailedTransactionYieldsNothing : Prop :=
  (∀ (s : State), Reachable s → s.done = true → s.kind ≠ .ok → readReg s .payload = 0 ∧ readReg s .reading = 0) ∧
  (∀ (s : State) (f : Vector Byte 5) (c : Byte) (r : HostReg), readReg { s with frame := f, cur := c } r = readReg s r)

/-- The counters stay in range (10_state.md R23 to R25): BYTE_IDX never exceeds 5, POLL_CNT never exceeds the limit of its
loop and never wraps when it counts. -/
def Obligations.CountersStayInRange : Prop :=
  ∀ (s : State) (t : State), StateInv s → step s = .next t →
    t.byteIdx.toNat ≤ 5 ∧
    (s.phase = .presence → t.busy = true ∨ t.done = true → t.pollCnt ≠ s.pollCnt → s.step ≠ .s0 →
      t.pollCnt.toNat = s.pollCnt.toNat + 1 ∧ t.pollCnt.toNat ≤ s.cfg.presencePolls.toNat) ∧
    (s.phase = .bitRead → t.busy = true ∨ t.done = true → t.pollCnt ≠ s.pollCnt → s.step ≠ .s3 →
      t.pollCnt.toNat = s.pollCnt.toNat + 1 ∧ t.pollCnt.toNat ≤ s.cfg.bitPollMax.toNat)

/-- 43_frame_checksum_read.md R161: when SEQ reaches (CHECKSUM, 0), CSUM is the sum of the four data bytes modulo 256. -/
def Obligations.ChecksumIsTheSumOfTheDataBytes : Prop :=
  ∀ (s : State) (t : State), StateInv s → step s = .next t → t.phase = .checksum →
    t.csum.toNat = (t.frame[0].toNat + t.frame[1].toNat + t.frame[2].toNat + t.frame[3].toNat) % 256

/-- A success is reported only by DECODE and only for a frame whose fifth byte is the sum of the others; the result registers
then hold that frame's payload and reading and STATUS reads 0x00000002 (43_frame_checksum_read.md R162, R167; 44_reading_decoder.md
R180 to R183). -/
def Obligations.SuccessIsReportedOnlyForAValidFrame : Prop :=
  ∀ (s : State) (t : State), StateInv s → s.done = false → step s = .next t → t.done = true → t.kind = .ok →
    s.phase = .decode ∧ t.frame = s.frame ∧
    t.frame[4].toNat = (t.frame[0].toNat + t.frame[1].toNat + t.frame[2].toNat + t.frame[3].toNat) % 256 ∧
    t.payload = packPayload t.frame ∧ t.rh = t.frame[0] ∧ t.temp = signMagnitude t.frame[2] ∧
    readReg t .status = 0x00000002#32 ∧ t.fault = 0

/-- Which routine can end in which kind (60_exceptions.md R191 to R194): a step that ends a transaction, by where it stood. -/
def Obligations.ErrorKindsByRoutine : Prop :=
  ∀ (s : State) (t : State), StateInv s → s.busy = true → step s = .next t → t.done = true →
    (t.kind = .busFault →
      (s.phase = .reset ∧ (s.step = .s0 ∨ s.step = .s2)) ∨ (s.phase = .presence ∧ s.step = .s1) ∨
      (s.phase = .bitRead ∧ (s.step = .s0 ∨ s.step = .s2 ∨ s.step = .s4))) ∧
    (t.kind = .timeout →
      (s.phase = .presence ∧ s.step = .s1) ∨ (s.phase = .bitRead ∧ s.step = .s4 ∧ s.cfg.sampleMode = .threshold)) ∧
    (t.kind = .checksumMismatch → s.phase = .checksum) ∧ (t.kind = .ok → s.phase = .decode) ∧
    (∀ d, s.command ≠ some (waitInstr d))

/-- 42_bit_byte_read.md R145: in LEVEL mode no slot raises Timeout; without a presence check as well, no transaction does. -/
def Obligations.LevelModeSlotsNeverTimeOut : Prop :=
  (∀ (s : State) (t : State), s.cfg.sampleMode = .level → s.busy = true → s.done = false → s.phase = .bitRead → step s = .next t →
    ¬ (t.done = true ∧ t.kind = .timeout)) ∧
  (∀ (s : State), Reachable s → s.cfg.sampleMode = .level → s.cfg.presenceCheck = false → s.done = true →
    s.kind = .ok ∨ s.kind = .busFault ∨ s.kind = .checksumMismatch)

/-- No refusal without a violated obligation: from every reachable state, if the Delay Provider keeps its contract
(40_capability_ops.md R107) and the host's event is legal, the step answers a next state. -/
def Obligations.NothingIsRefusedInALegalRun : Prop :=
  ∀ (s : State), Reachable s → delaysAnswered s →
    (∀ e rest, s.host = e :: rest →
      e = .run ∨ e = .resetInput ∨ (e = .foreignUse ∧ s.busy = false) ∨
      (∃ (k : Fin 5) (v : HostWord), e = .load (s.cfg.oweBase + 4 * k) 4 ∨ e = .store (s.cfg.oweBase + 4 * k) 4 v)) →
    ∃ t, step s = .next t

/-- 70_reset_and_hazards.md R234: a transaction issues at most `244 + 2P` commands in LEVEL mode and at most
`164 + 2P + 80M` in THRESHOLD mode, counted in the trace, which is that of one transaction (the model's choice, log 9). -/
def Obligations.TransactionsAreBoundedInLength : Prop :=
  ∀ (s : State), Reachable s →
    let p := if s.cfg.presenceCheck then s.cfg.presencePolls.toNat else 0
    (s.cfg.sampleMode = .level → s.trace.length ≤ 244 + 2 * p) ∧
    (s.cfg.sampleMode = .threshold → s.trace.length ≤ 164 + 2 * p + 80 * s.cfg.bitPollMax.toNat)

/-- 70_reset_and_hazards.md R234 ("never hang"), 60_exceptions.md R203: if every command is answered, a transaction left alone
by the host completes, within its bound of commands and two internal updates. -/
def Obligations.EveryTransactionCompletes : Prop :=
  ∀ (s : State), StateInv s → s.busy = true → s.host = [] → busAnswers s → delaysAnswered s →
    ∃ n t, n ≤ transactionCommands s.cfg + 2 ∧ Sys2Proof.core.run n s = .next t ∧ t.busy = false ∧ t.done = true

/-- 10_state.md R38, 60_exceptions.md R202: a transaction does not depend on what was before it. Two idle states under the same
configuration and environment give, after START and any number of steps, the same result and the same trace. -/
def Obligations.TransactionsDoNotDependOnHistory : Prop :=
  ∀ (s : State) (t : State) n (s' : State) (t' : State), s.busy = false → t.busy = false → s.cfg = t.cfg → s.bus = t.bus → s.delay = t.delay →
    s.freeCount = t.freeCount → s.host = [] → t.host = [] →
    Sys2Proof.core.run n s.begin = .next s' → Sys2Proof.core.run n t.begin = .next t' → SameOutcome s' t'

/-! ## Composite routines -/

/-- One LEVEL slot (42_bit_byte_read.md R140, R142; 30_encoding.md R89): six steps, whose lines are `SLOT b`, shift the sampled
level into CUR and end in the slot end. -/
def Obligations.ALevelSlotReadsOneBit : Prop :=
  ∀ (s : State) b rest, s.busy = true → s.phase = .bitRead → s.step = .s0 → s.cfg.sampleMode = .level → s.host = [] →
    delaysAnswered s → s.bus = slotReplies b ++ rest → s.bitIdx.toNat < 7 →
    Sys2Proof.core.run 6 s = .next { s with
      bus := rest, delay := s.delay.drop 3, trace := s.trace ++ slotLines s.cfg b, lineDir := .released
      cur := shiftIn s.cur b, bitIdx := s.bitIdx + 1 }

/-- BYTE_READ in LEVEL mode (42_bit_byte_read.md R143, 20_memory.md R57): from a byte begin, 48 steps store the byte whose most
significant bit came first, add it to CSUM unless it is the fifth, and stand at the next byte begin or at CHECKSUM. -/
def Obligations.EightLevelSlotsReadOneByte : Prop :=
  ∀ (s : State) (v : Byte) rest, s.busy = true → s.phase = .bitRead → s.step = .s0 → s.cfg.sampleMode = .level → s.host = [] →
    delaysAnswered s → s.bus = byteReplies v ++ rest → s.bitIdx = 0 → s.cur = 0 → s.byteIdx.toNat < 5 →
    Sys2Proof.core.run 48 s = .next { s with
      bus := rest, delay := s.delay.drop 24, trace := s.trace ++ byteLines s.cfg v, lineDir := .released
      frame := storeFrame s.frame s.byteIdx v
      csum := if s.byteIdx.toNat < 4 then s.csum + v else s.csum
      byteIdx := s.byteIdx + 1
      phase := if s.byteIdx.toNat < 4 then .bitRead else .checksum }

/-- One THRESHOLD slot (42_bit_byte_read.md R141): with `k` low samples before the first high one it takes `2(k + 1) + 4`
commands and reads 1 exactly when `k < BIT_THRESHOLD`; if every allowed sample is low it takes `2M + 3` and is Timeout. -/
def Obligations.AThresholdSlotCountsLowSamples : Prop :=
  ∀ (s : State) k rest, s.busy = true → s.phase = .bitRead → s.step = .s0 → s.cfg.sampleMode = .threshold → s.host = [] →
    s.delay = [] → bitLimitsLegal s.cfg = true → s.bitIdx.toNat < 7 →
    (k < s.cfg.bitPollMax.toNat →
      s.bus = [.word 0, .word 0] ++ List.replicate k (levelReply false) ++ [levelReply true] ++ rest →
      ∃ t, Sys2Proof.core.run (2 * (k + 1) + 4) s = .next t ∧ t.trace.length = s.trace.length + (2 * (k + 1) + 4) ∧
        t.cur = shiftIn s.cur (decide (k < s.cfg.bitThreshold.toNat)) ∧ t.pollCnt.toNat = k ∧
        t.bitIdx = s.bitIdx + 1 ∧ t.phase = .bitRead ∧ t.step = .s0 ∧ t.bus = rest ∧ t.busy = true) ∧
    (k = s.cfg.bitPollMax.toNat → s.bus = [.word 0, .word 0] ++ List.replicate k (levelReply false) ++ rest →
      ∃ t, Sys2Proof.core.run (2 * k + 3) s = .next t ∧ t.trace.length = s.trace.length + (2 * k + 3) ∧
        t.done = true ∧ t.kind = .timeout ∧ t.fault = 0 ∧ t.cur = s.cur ∧ t.lineDir = .released ∧ t.bus = rest)

/-- PRESENCE (41_reset_presence.md R121): with the sample after `k` high ones low it takes `2(k + 1)` commands and goes to
POST_RESET; if every allowed sample is high it takes `2 * PRESENCE_POLLS` and is Timeout, LINE_DIR as it was. -/
def Obligations.PresencePollsAreCounted : Prop :=
  ∀ (s : State) k rest, s.busy = true → s.phase = .presence → s.step = .s0 → s.host = [] → s.delay = [] →
    (k < s.cfg.presencePolls.toNat → s.bus = List.replicate k (levelReply true) ++ [levelReply false] ++ rest →
      ∃ t, Sys2Proof.core.run (2 * (k + 1)) s = .next t ∧ t.trace = s.trace ++ (delayLine s.cfg.tPresenceDelay ::
          ((List.replicate k [⟨0x300000000#36, .level true⟩, delayLine s.cfg.tPresencePoll]).flatten ++
            [⟨0x300000000#36, .level false⟩])) ∧
        t.phase = .postReset ∧ t.step = .s0 ∧ t.pollCnt.toNat = k ∧ t.bus = rest ∧ t.lineDir = s.lineDir ∧ t.busy = true) ∧
    (k = s.cfg.presencePolls.toNat → 0 < k → s.bus = List.replicate k (levelReply true) ++ rest →
      ∃ t, Sys2Proof.core.run (2 * k) s = .next t ∧ t.trace.length = s.trace.length + 2 * k ∧
        t.done = true ∧ t.busy = false ∧ t.kind = .timeout ∧ t.fault = 0 ∧ t.bus = rest ∧ t.lineDir = s.lineDir)

/-- The whole transaction READ in LEVEL mode (43_frame_checksum_read.md R160, R163, R164; 20_memory.md R57), from any idle state:
for every frame the Bus Line plays back, its trace line by line, and its result: the payload and the reading exactly when the
checksum is right, else ChecksumMismatch with nothing reported (95_test_vectors.md S6, S9, S10). -/
def Obligations.AWholeLevelTransactionReportsItsFrame : Prop :=
  ∀ (s : State) (v : HostWord) (k : Nat) (f : Vector Byte 5) rest,
    s.busy = false → s.cfg.sampleMode = .level → v[0] = true → s.host = [.store s.cfg.oweBase 4 v] → delaysAnswered s →
    (s.cfg.presenceCheck = true → k < s.cfg.presencePolls.toNat) →
    s.bus = beforeFrameReplies s.cfg k ++ frameReplies f ++ rest →
    ∃ t, Sys2Proof.core.run ((beforeFrameLines s.cfg k).length + 243) s = .next t ∧
      t.trace = beforeFrameLines s.cfg k ++ frameLines s.cfg f ∧ t.frame = f ∧ t.bus = rest ∧
      t.busy = false ∧ t.done = true ∧ t.fault = 0 ∧ t.lineDir = .released ∧
      (f[4] = f[0] + f[1] + f[2] + f[3] →
        t.kind = .ok ∧ t.payload = f[0] ++ f[1] ++ f[2] ++ f[3] ∧ t.rh = f[0] ∧ t.temp = signMagnitude f[2]) ∧
      (f[4] ≠ f[0] + f[1] + f[2] + f[3] → t.kind = .checksumMismatch ∧ t.payload = 0 ∧ t.rh = 0 ∧ t.temp = 0)

/-- The nominal duration of a LEVEL transaction whose presence is seen after `k` high samples, a success or a ChecksumMismatch
(70_reset_and_hazards.md R235): of the lines such a transaction has, and of the trace of the run itself. That a millisecond is
1000 microseconds is PRESUMED (log 18). -/
def Obligations.NominalDurationOfALevelTransaction : Prop :=
  (∀ (c : Cfg) (k : Nat) (f : Vector Byte 5),
    nominalMicros (beforeFrameLines c k ++ frameLines c f) =
      nominalUs c.tResetLow +
      (if c.presenceCheck then nominalUs c.tPresenceDelay + k * nominalUs c.tPresencePoll else 0) +
      nominalUs c.tPostReset + 40 * (nominalUs c.tSlotLow + nominalUs c.tSettle + nominalUs c.tRecovery)) ∧
  (∀ (s : State) (v : HostWord) (k : Nat) (f : Vector Byte 5) rest,
    s.busy = false → s.cfg.sampleMode = .level → v[0] = true → s.host = [.store s.cfg.oweBase 4 v] → delaysAnswered s →
    (s.cfg.presenceCheck = true → k < s.cfg.presencePolls.toNat) →
    s.bus = beforeFrameReplies s.cfg k ++ frameReplies f ++ rest →
    ∃ t, Sys2Proof.core.run ((beforeFrameLines s.cfg k).length + 243) s = .next t ∧ t.done = true ∧
      (f[4] = f[0] + f[1] + f[2] + f[3] → t.kind = .ok) ∧
      nominalMicros t.trace =
        nominalUs s.cfg.tResetLow +
        (if s.cfg.presenceCheck then nominalUs s.cfg.tPresenceDelay + k * nominalUs s.cfg.tPresencePoll else 0) +
        nominalUs s.cfg.tPostReset +
        40 * (nominalUs s.cfg.tSlotLow + nominalUs s.cfg.tSettle + nominalUs s.cfg.tRecovery))
end

