-- ==== Sys2Proof/Laws/State.lean ====
section
/-! SUPPORT. One lemma per field per named update of State. -/

namespace Sys2Proof.Machine

variable (s : State)

@[simp] theorem State.goto_phase (p : Phase) (k : Step) : (s.goto p k).phase = p := rfl
@[simp] theorem State.goto_step (p : Phase) (k : Step) : (s.goto p k).step = k := rfl
@[simp] theorem State.goto_byteIdx (p : Phase) (k : Step) : (s.goto p k).byteIdx = s.byteIdx := rfl
@[simp] theorem State.goto_bitIdx (p : Phase) (k : Step) : (s.goto p k).bitIdx = s.bitIdx := rfl
@[simp] theorem State.goto_pollCnt (p : Phase) (k : Step) : (s.goto p k).pollCnt = s.pollCnt := rfl
@[simp] theorem State.goto_cur (p : Phase) (k : Step) : (s.goto p k).cur = s.cur := rfl
@[simp] theorem State.goto_frame (p : Phase) (k : Step) : (s.goto p k).frame = s.frame := rfl
@[simp] theorem State.goto_csum (p : Phase) (k : Step) : (s.goto p k).csum = s.csum := rfl
@[simp] theorem State.goto_lineDir (p : Phase) (k : Step) : (s.goto p k).lineDir = s.lineDir := rfl
@[simp] theorem State.goto_busy (p : Phase) (k : Step) : (s.goto p k).busy = s.busy := rfl
@[simp] theorem State.goto_done (p : Phase) (k : Step) : (s.goto p k).done = s.done := rfl
@[simp] theorem State.goto_kind (p : Phase) (k : Step) : (s.goto p k).kind = s.kind := rfl
@[simp] theorem State.goto_fault (p : Phase) (k : Step) : (s.goto p k).fault = s.fault := rfl
@[simp] theorem State.goto_payload (p : Phase) (k : Step) : (s.goto p k).payload = s.payload := rfl
@[simp] theorem State.goto_temp (p : Phase) (k : Step) : (s.goto p k).temp = s.temp := rfl
@[simp] theorem State.goto_rh (p : Phase) (k : Step) : (s.goto p k).rh = s.rh := rfl
@[simp] theorem State.goto_cfg (p : Phase) (k : Step) : (s.goto p k).cfg = s.cfg := rfl
@[simp] theorem State.goto_bus (p : Phase) (k : Step) : (s.goto p k).bus = s.bus := rfl
@[simp] theorem State.goto_delay (p : Phase) (k : Step) : (s.goto p k).delay = s.delay := rfl
@[simp] theorem State.goto_freeCount (p : Phase) (k : Step) : (s.goto p k).freeCount = s.freeCount := rfl
@[simp] theorem State.goto_trace (p : Phase) (k : Step) : (s.goto p k).trace = s.trace := rfl
@[simp] theorem State.goto_host (p : Phase) (k : Step) : (s.goto p k).host = s.host := rfl
@[simp] theorem State.goto_hostData (p : Phase) (k : Step) : (s.goto p k).hostData = s.hostData := rfl

@[simp] theorem State.setLineDir_phase (d : LineDir) : (s.setLineDir d).phase = s.phase := rfl
@[simp] theorem State.setLineDir_step (d : LineDir) : (s.setLineDir d).step = s.step := rfl
@[simp] theorem State.setLineDir_byteIdx (d : LineDir) : (s.setLineDir d).byteIdx = s.byteIdx := rfl
@[simp] theorem State.setLineDir_bitIdx (d : LineDir) : (s.setLineDir d).bitIdx = s.bitIdx := rfl
@[simp] theorem State.setLineDir_pollCnt (d : LineDir) : (s.setLineDir d).pollCnt = s.pollCnt := rfl
@[simp] theorem State.setLineDir_cur (d : LineDir) : (s.setLineDir d).cur = s.cur := rfl
@[simp] theorem State.setLineDir_frame (d : LineDir) : (s.setLineDir d).frame = s.frame := rfl
@[simp] theorem State.setLineDir_csum (d : LineDir) : (s.setLineDir d).csum = s.csum := rfl
@[simp] theorem State.setLineDir_lineDir (d : LineDir) : (s.setLineDir d).lineDir = d := rfl
@[simp] theorem State.setLineDir_busy (d : LineDir) : (s.setLineDir d).busy = s.busy := rfl
@[simp] theorem State.setLineDir_done (d : LineDir) : (s.setLineDir d).done = s.done := rfl
@[simp] theorem State.setLineDir_kind (d : LineDir) : (s.setLineDir d).kind = s.kind := rfl
@[simp] theorem State.setLineDir_fault (d : LineDir) : (s.setLineDir d).fault = s.fault := rfl
@[simp] theorem State.setLineDir_payload (d : LineDir) : (s.setLineDir d).payload = s.payload := rfl
@[simp] theorem State.setLineDir_temp (d : LineDir) : (s.setLineDir d).temp = s.temp := rfl
@[simp] theorem State.setLineDir_rh (d : LineDir) : (s.setLineDir d).rh = s.rh := rfl
@[simp] theorem State.setLineDir_cfg (d : LineDir) : (s.setLineDir d).cfg = s.cfg := rfl
@[simp] theorem State.setLineDir_bus (d : LineDir) : (s.setLineDir d).bus = s.bus := rfl
@[simp] theorem State.setLineDir_delay (d : LineDir) : (s.setLineDir d).delay = s.delay := rfl
@[simp] theorem State.setLineDir_freeCount (d : LineDir) : (s.setLineDir d).freeCount = s.freeCount := rfl
@[simp] theorem State.setLineDir_trace (d : LineDir) : (s.setLineDir d).trace = s.trace := rfl
@[simp] theorem State.setLineDir_host (d : LineDir) : (s.setLineDir d).host = s.host := rfl
@[simp] theorem State.setLineDir_hostData (d : LineDir) : (s.setLineDir d).hostData = s.hostData := rfl

@[simp] theorem State.setPollCnt_phase (n : BitVec 16) : (s.setPollCnt n).phase = s.phase := rfl
@[simp] theorem State.setPollCnt_step (n : BitVec 16) : (s.setPollCnt n).step = s.step := rfl
@[simp] theorem State.setPollCnt_byteIdx (n : BitVec 16) : (s.setPollCnt n).byteIdx = s.byteIdx := rfl
@[simp] theorem State.setPollCnt_bitIdx (n : BitVec 16) : (s.setPollCnt n).bitIdx = s.bitIdx := rfl
@[simp] theorem State.setPollCnt_pollCnt (n : BitVec 16) : (s.setPollCnt n).pollCnt = n := rfl
@[simp] theorem State.setPollCnt_cur (n : BitVec 16) : (s.setPollCnt n).cur = s.cur := rfl
@[simp] theorem State.setPollCnt_frame (n : BitVec 16) : (s.setPollCnt n).frame = s.frame := rfl
@[simp] theorem State.setPollCnt_csum (n : BitVec 16) : (s.setPollCnt n).csum = s.csum := rfl
@[simp] theorem State.setPollCnt_lineDir (n : BitVec 16) : (s.setPollCnt n).lineDir = s.lineDir := rfl
@[simp] theorem State.setPollCnt_busy (n : BitVec 16) : (s.setPollCnt n).busy = s.busy := rfl
@[simp] theorem State.setPollCnt_done (n : BitVec 16) : (s.setPollCnt n).done = s.done := rfl
@[simp] theorem State.setPollCnt_kind (n : BitVec 16) : (s.setPollCnt n).kind = s.kind := rfl
@[simp] theorem State.setPollCnt_fault (n : BitVec 16) : (s.setPollCnt n).fault = s.fault := rfl
@[simp] theorem State.setPollCnt_payload (n : BitVec 16) : (s.setPollCnt n).payload = s.payload := rfl
@[simp] theorem State.setPollCnt_temp (n : BitVec 16) : (s.setPollCnt n).temp = s.temp := rfl
@[simp] theorem State.setPollCnt_rh (n : BitVec 16) : (s.setPollCnt n).rh = s.rh := rfl
@[simp] theorem State.setPollCnt_cfg (n : BitVec 16) : (s.setPollCnt n).cfg = s.cfg := rfl
@[simp] theorem State.setPollCnt_bus (n : BitVec 16) : (s.setPollCnt n).bus = s.bus := rfl
@[simp] theorem State.setPollCnt_delay (n : BitVec 16) : (s.setPollCnt n).delay = s.delay := rfl
@[simp] theorem State.setPollCnt_freeCount (n : BitVec 16) : (s.setPollCnt n).freeCount = s.freeCount := rfl
@[simp] theorem State.setPollCnt_trace (n : BitVec 16) : (s.setPollCnt n).trace = s.trace := rfl
@[simp] theorem State.setPollCnt_host (n : BitVec 16) : (s.setPollCnt n).host = s.host := rfl
@[simp] theorem State.setPollCnt_hostData (n : BitVec 16) : (s.setPollCnt n).hostData = s.hostData := rfl

@[simp] theorem State.setCur_phase (v : Byte) : (s.setCur v).phase = s.phase := rfl
@[simp] theorem State.setCur_step (v : Byte) : (s.setCur v).step = s.step := rfl
@[simp] theorem State.setCur_byteIdx (v : Byte) : (s.setCur v).byteIdx = s.byteIdx := rfl
@[simp] theorem State.setCur_bitIdx (v : Byte) : (s.setCur v).bitIdx = s.bitIdx := rfl
@[simp] theorem State.setCur_pollCnt (v : Byte) : (s.setCur v).pollCnt = s.pollCnt := rfl
@[simp] theorem State.setCur_cur (v : Byte) : (s.setCur v).cur = v := rfl
@[simp] theorem State.setCur_frame (v : Byte) : (s.setCur v).frame = s.frame := rfl
@[simp] theorem State.setCur_csum (v : Byte) : (s.setCur v).csum = s.csum := rfl
@[simp] theorem State.setCur_lineDir (v : Byte) : (s.setCur v).lineDir = s.lineDir := rfl
@[simp] theorem State.setCur_busy (v : Byte) : (s.setCur v).busy = s.busy := rfl
@[simp] theorem State.setCur_done (v : Byte) : (s.setCur v).done = s.done := rfl
@[simp] theorem State.setCur_kind (v : Byte) : (s.setCur v).kind = s.kind := rfl
@[simp] theorem State.setCur_fault (v : Byte) : (s.setCur v).fault = s.fault := rfl
@[simp] theorem State.setCur_payload (v : Byte) : (s.setCur v).payload = s.payload := rfl
@[simp] theorem State.setCur_temp (v : Byte) : (s.setCur v).temp = s.temp := rfl
@[simp] theorem State.setCur_rh (v : Byte) : (s.setCur v).rh = s.rh := rfl
@[simp] theorem State.setCur_cfg (v : Byte) : (s.setCur v).cfg = s.cfg := rfl
@[simp] theorem State.setCur_bus (v : Byte) : (s.setCur v).bus = s.bus := rfl
@[simp] theorem State.setCur_delay (v : Byte) : (s.setCur v).delay = s.delay := rfl
@[simp] theorem State.setCur_freeCount (v : Byte) : (s.setCur v).freeCount = s.freeCount := rfl
@[simp] theorem State.setCur_trace (v : Byte) : (s.setCur v).trace = s.trace := rfl
@[simp] theorem State.setCur_host (v : Byte) : (s.setCur v).host = s.host := rfl
@[simp] theorem State.setCur_hostData (v : Byte) : (s.setCur v).hostData = s.hostData := rfl

@[simp] theorem State.raise_phase (x : Err) : (s.raise x).phase = .idle := rfl
@[simp] theorem State.raise_step (x : Err) : (s.raise x).step = .s0 := rfl
@[simp] theorem State.raise_byteIdx (x : Err) : (s.raise x).byteIdx = s.byteIdx := rfl
@[simp] theorem State.raise_bitIdx (x : Err) : (s.raise x).bitIdx = s.bitIdx := rfl
@[simp] theorem State.raise_pollCnt (x : Err) : (s.raise x).pollCnt = s.pollCnt := rfl
@[simp] theorem State.raise_cur (x : Err) : (s.raise x).cur = s.cur := rfl
@[simp] theorem State.raise_frame (x : Err) : (s.raise x).frame = s.frame := rfl
@[simp] theorem State.raise_csum (x : Err) : (s.raise x).csum = s.csum := rfl
@[simp] theorem State.raise_lineDir (x : Err) : (s.raise x).lineDir = s.lineDir := rfl
@[simp] theorem State.raise_busy (x : Err) : (s.raise x).busy = false := rfl
@[simp] theorem State.raise_done (x : Err) : (s.raise x).done = true := rfl
@[simp] theorem State.raise_kind (x : Err) : (s.raise x).kind = x.kind := rfl
@[simp] theorem State.raise_fault (x : Err) : (s.raise x).fault = x.faultValue := rfl
@[simp] theorem State.raise_payload (x : Err) : (s.raise x).payload = 0 := rfl
@[simp] theorem State.raise_temp (x : Err) : (s.raise x).temp = 0 := rfl
@[simp] theorem State.raise_rh (x : Err) : (s.raise x).rh = 0 := rfl
@[simp] theorem State.raise_cfg (x : Err) : (s.raise x).cfg = s.cfg := rfl
@[simp] theorem State.raise_bus (x : Err) : (s.raise x).bus = s.bus := rfl
@[simp] theorem State.raise_delay (x : Err) : (s.raise x).delay = s.delay := rfl
@[simp] theorem State.raise_freeCount (x : Err) : (s.raise x).freeCount = s.freeCount := rfl
@[simp] theorem State.raise_trace (x : Err) : (s.raise x).trace = s.trace := rfl
@[simp] theorem State.raise_host (x : Err) : (s.raise x).host = s.host := rfl
@[simp] theorem State.raise_hostData (x : Err) : (s.raise x).hostData = s.hostData := rfl

@[simp] theorem State.succeed_phase (a b : Byte) : (s.succeed a b).phase = .idle := rfl
@[simp] theorem State.succeed_step (a b : Byte) : (s.succeed a b).step = .s0 := rfl
@[simp] theorem State.succeed_byteIdx (a b : Byte) : (s.succeed a b).byteIdx = s.byteIdx := rfl
@[simp] theorem State.succeed_bitIdx (a b : Byte) : (s.succeed a b).bitIdx = s.bitIdx := rfl
@[simp] theorem State.succeed_pollCnt (a b : Byte) : (s.succeed a b).pollCnt = s.pollCnt := rfl
@[simp] theorem State.succeed_cur (a b : Byte) : (s.succeed a b).cur = s.cur := rfl
@[simp] theorem State.succeed_frame (a b : Byte) : (s.succeed a b).frame = s.frame := rfl
@[simp] theorem State.succeed_csum (a b : Byte) : (s.succeed a b).csum = s.csum := rfl
@[simp] theorem State.succeed_lineDir (a b : Byte) : (s.succeed a b).lineDir = s.lineDir := rfl
@[simp] theorem State.succeed_busy (a b : Byte) : (s.succeed a b).busy = false := rfl
@[simp] theorem State.succeed_done (a b : Byte) : (s.succeed a b).done = true := rfl
@[simp] theorem State.succeed_kind (a b : Byte) : (s.succeed a b).kind = .ok := rfl
@[simp] theorem State.succeed_fault (a b : Byte) : (s.succeed a b).fault = 0 := rfl
@[simp] theorem State.succeed_payload (a b : Byte) : (s.succeed a b).payload = packPayload s.frame := rfl
@[simp] theorem State.succeed_temp (a b : Byte) : (s.succeed a b).temp = b := rfl
@[simp] theorem State.succeed_rh (a b : Byte) : (s.succeed a b).rh = a := rfl
@[simp] theorem State.succeed_cfg (a b : Byte) : (s.succeed a b).cfg = s.cfg := rfl
@[simp] theorem State.succeed_bus (a b : Byte) : (s.succeed a b).bus = s.bus := rfl
@[simp] theorem State.succeed_delay (a b : Byte) : (s.succeed a b).delay = s.delay := rfl
@[simp] theorem State.succeed_freeCount (a b : Byte) : (s.succeed a b).freeCount = s.freeCount := rfl
@[simp] theorem State.succeed_trace (a b : Byte) : (s.succeed a b).trace = s.trace := rfl
@[simp] theorem State.succeed_host (a b : Byte) : (s.succeed a b).host = s.host := rfl
@[simp] theorem State.succeed_hostData (a b : Byte) : (s.succeed a b).hostData = s.hostData := rfl

@[simp] theorem State.begin_phase : (s.begin).phase = .reset := rfl
@[simp] theorem State.begin_step : (s.begin).step = .s0 := rfl
@[simp] theorem State.begin_byteIdx : (s.begin).byteIdx = 0 := rfl
@[simp] theorem State.begin_bitIdx : (s.begin).bitIdx = 0 := rfl
@[simp] theorem State.begin_pollCnt : (s.begin).pollCnt = 0 := rfl
@[simp] theorem State.begin_cur : (s.begin).cur = 0 := rfl
@[simp] theorem State.begin_frame : (s.begin).frame = s.frame := rfl
@[simp] theorem State.begin_csum : (s.begin).csum = 0 := rfl
@[simp] theorem State.begin_lineDir : (s.begin).lineDir = s.lineDir := rfl
@[simp] theorem State.begin_busy : (s.begin).busy = true := rfl
@[simp] theorem State.begin_done : (s.begin).done = false := rfl
@[simp] theorem State.begin_kind : (s.begin).kind = .ok := rfl
@[simp] theorem State.begin_fault : (s.begin).fault = 0 := rfl
@[simp] theorem State.begin_payload : (s.begin).payload = 0 := rfl
@[simp] theorem State.begin_temp : (s.begin).temp = 0 := rfl
@[simp] theorem State.begin_rh : (s.begin).rh = 0 := rfl
@[simp] theorem State.begin_cfg : (s.begin).cfg = s.cfg := rfl
@[simp] theorem State.begin_bus : (s.begin).bus = s.bus := rfl
@[simp] theorem State.begin_delay : (s.begin).delay = s.delay := rfl
@[simp] theorem State.begin_freeCount : (s.begin).freeCount = s.freeCount := rfl
@[simp] theorem State.begin_trace : (s.begin).trace = [] := rfl
@[simp] theorem State.begin_host : (s.begin).host = s.host := rfl
@[simp] theorem State.begin_hostData : (s.begin).hostData = s.hostData := rfl

@[simp] theorem State.dropDelay_phase : (s.dropDelay).phase = s.phase := rfl
@[simp] theorem State.dropDelay_step : (s.dropDelay).step = s.step := rfl
@[simp] theorem State.dropDelay_byteIdx : (s.dropDelay).byteIdx = s.byteIdx := rfl
@[simp] theorem State.dropDelay_bitIdx : (s.dropDelay).bitIdx = s.bitIdx := rfl
@[simp] theorem State.dropDelay_pollCnt : (s.dropDelay).pollCnt = s.pollCnt := rfl
@[simp] theorem State.dropDelay_cur : (s.dropDelay).cur = s.cur := rfl
@[simp] theorem State.dropDelay_frame : (s.dropDelay).frame = s.frame := rfl
@[simp] theorem State.dropDelay_csum : (s.dropDelay).csum = s.csum := rfl
@[simp] theorem State.dropDelay_lineDir : (s.dropDelay).lineDir = s.lineDir := rfl
@[simp] theorem State.dropDelay_busy : (s.dropDelay).busy = s.busy := rfl
@[simp] theorem State.dropDelay_done : (s.dropDelay).done = s.done := rfl
@[simp] theorem State.dropDelay_kind : (s.dropDelay).kind = s.kind := rfl
@[simp] theorem State.dropDelay_fault : (s.dropDelay).fault = s.fault := rfl
@[simp] theorem State.dropDelay_payload : (s.dropDelay).payload = s.payload := rfl
@[simp] theorem State.dropDelay_temp : (s.dropDelay).temp = s.temp := rfl
@[simp] theorem State.dropDelay_rh : (s.dropDelay).rh = s.rh := rfl
@[simp] theorem State.dropDelay_cfg : (s.dropDelay).cfg = s.cfg := rfl
@[simp] theorem State.dropDelay_bus : (s.dropDelay).bus = s.bus := rfl
@[simp] theorem State.dropDelay_delay : (s.dropDelay).delay = s.delay.tail := rfl
@[simp] theorem State.dropDelay_freeCount : (s.dropDelay).freeCount = s.freeCount := rfl
@[simp] theorem State.dropDelay_trace : (s.dropDelay).trace = s.trace := rfl
@[simp] theorem State.dropDelay_host : (s.dropDelay).host = s.host := rfl
@[simp] theorem State.dropDelay_hostData : (s.dropDelay).hostData = s.hostData := rfl

@[simp] theorem State.record_phase (i : Instr) (a : Answer) : (s.record i a).phase = s.phase := rfl
@[simp] theorem State.record_step (i : Instr) (a : Answer) : (s.record i a).step = s.step := rfl
@[simp] theorem State.record_byteIdx (i : Instr) (a : Answer) : (s.record i a).byteIdx = s.byteIdx := rfl
@[simp] theorem State.record_bitIdx (i : Instr) (a : Answer) : (s.record i a).bitIdx = s.bitIdx := rfl
@[simp] theorem State.record_pollCnt (i : Instr) (a : Answer) : (s.record i a).pollCnt = s.pollCnt := rfl
@[simp] theorem State.record_cur (i : Instr) (a : Answer) : (s.record i a).cur = s.cur := rfl
@[simp] theorem State.record_frame (i : Instr) (a : Answer) : (s.record i a).frame = s.frame := rfl
@[simp] theorem State.record_csum (i : Instr) (a : Answer) : (s.record i a).csum = s.csum := rfl
@[simp] theorem State.record_lineDir (i : Instr) (a : Answer) : (s.record i a).lineDir = s.lineDir := rfl
@[simp] theorem State.record_busy (i : Instr) (a : Answer) : (s.record i a).busy = s.busy := rfl
@[simp] theorem State.record_done (i : Instr) (a : Answer) : (s.record i a).done = s.done := rfl
@[simp] theorem State.record_kind (i : Instr) (a : Answer) : (s.record i a).kind = s.kind := rfl
@[simp] theorem State.record_fault (i : Instr) (a : Answer) : (s.record i a).fault = s.fault := rfl
@[simp] theorem State.record_payload (i : Instr) (a : Answer) : (s.record i a).payload = s.payload := rfl
@[simp] theorem State.record_temp (i : Instr) (a : Answer) : (s.record i a).temp = s.temp := rfl
@[simp] theorem State.record_rh (i : Instr) (a : Answer) : (s.record i a).rh = s.rh := rfl
@[simp] theorem State.record_cfg (i : Instr) (a : Answer) : (s.record i a).cfg = s.cfg := rfl
@[simp] theorem State.record_bus (i : Instr) (a : Answer) : (s.record i a).bus = s.bus := rfl
@[simp] theorem State.record_delay (i : Instr) (a : Answer) : (s.record i a).delay = s.delay := rfl
@[simp] theorem State.record_freeCount (i : Instr) (a : Answer) : (s.record i a).freeCount = s.freeCount := rfl
@[simp] theorem State.record_trace (i : Instr) (a : Answer) : (s.record i a).trace = s.trace ++ [⟨portWord i, a⟩] := rfl
@[simp] theorem State.record_host (i : Instr) (a : Answer) : (s.record i a).host = s.host := rfl
@[simp] theorem State.record_hostData (i : Instr) (a : Answer) : (s.record i a).hostData = s.hostData := rfl

@[simp] theorem byteStored_phase : (byteStored s).phase = s.phase := rfl
@[simp] theorem byteStored_step : (byteStored s).step = s.step := rfl
@[simp] theorem byteStored_byteIdx : (byteStored s).byteIdx = s.byteIdx + 1#3 := rfl
@[simp] theorem byteStored_bitIdx : (byteStored s).bitIdx = 0 := rfl
@[simp] theorem byteStored_pollCnt : (byteStored s).pollCnt = s.pollCnt := rfl
@[simp] theorem byteStored_cur : (byteStored s).cur = 0 := rfl
@[simp] theorem byteStored_frame : (byteStored s).frame = storeFrame s.frame s.byteIdx s.cur := rfl
@[simp] theorem byteStored_csum : (byteStored s).csum = if s.byteIdx.toNat < 4 then checksumAdd s.csum s.cur else s.csum := rfl
@[simp] theorem byteStored_lineDir : (byteStored s).lineDir = s.lineDir := rfl
@[simp] theorem byteStored_busy : (byteStored s).busy = s.busy := rfl
@[simp] theorem byteStored_done : (byteStored s).done = s.done := rfl
@[simp] theorem byteStored_kind : (byteStored s).kind = s.kind := rfl
@[simp] theorem byteStored_fault : (byteStored s).fault = s.fault := rfl
@[simp] theorem byteStored_payload : (byteStored s).payload = s.payload := rfl
@[simp] theorem byteStored_temp : (byteStored s).temp = s.temp := rfl
@[simp] theorem byteStored_rh : (byteStored s).rh = s.rh := rfl
@[simp] theorem byteStored_cfg : (byteStored s).cfg = s.cfg := rfl
@[simp] theorem byteStored_bus : (byteStored s).bus = s.bus := rfl
@[simp] theorem byteStored_delay : (byteStored s).delay = s.delay := rfl
@[simp] theorem byteStored_freeCount : (byteStored s).freeCount = s.freeCount := rfl
@[simp] theorem byteStored_trace : (byteStored s).trace = s.trace := rfl
@[simp] theorem byteStored_host : (byteStored s).host = s.host := rfl
@[simp] theorem byteStored_hostData : (byteStored s).hostData = s.hostData := rfl

@[simp] theorem bitCounted_phase : (bitCounted s).phase = s.phase := rfl
@[simp] theorem bitCounted_step : (bitCounted s).step = s.step := rfl
@[simp] theorem bitCounted_byteIdx : (bitCounted s).byteIdx = s.byteIdx := rfl
@[simp] theorem bitCounted_bitIdx : (bitCounted s).bitIdx = s.bitIdx + 1#3 := rfl
@[simp] theorem bitCounted_pollCnt : (bitCounted s).pollCnt = s.pollCnt := rfl
@[simp] theorem bitCounted_cur : (bitCounted s).cur = s.cur := rfl
@[simp] theorem bitCounted_frame : (bitCounted s).frame = s.frame := rfl
@[simp] theorem bitCounted_csum : (bitCounted s).csum = s.csum := rfl
@[simp] theorem bitCounted_lineDir : (bitCounted s).lineDir = s.lineDir := rfl
@[simp] theorem bitCounted_busy : (bitCounted s).busy = s.busy := rfl
@[simp] theorem bitCounted_done : (bitCounted s).done = s.done := rfl
@[simp] theorem bitCounted_kind : (bitCounted s).kind = s.kind := rfl
@[simp] theorem bitCounted_fault : (bitCounted s).fault = s.fault := rfl
@[simp] theorem bitCounted_payload : (bitCounted s).payload = s.payload := rfl
@[simp] theorem bitCounted_temp : (bitCounted s).temp = s.temp := rfl
@[simp] theorem bitCounted_rh : (bitCounted s).rh = s.rh := rfl
@[simp] theorem bitCounted_cfg : (bitCounted s).cfg = s.cfg := rfl
@[simp] theorem bitCounted_bus : (bitCounted s).bus = s.bus := rfl
@[simp] theorem bitCounted_delay : (bitCounted s).delay = s.delay := rfl
@[simp] theorem bitCounted_freeCount : (bitCounted s).freeCount = s.freeCount := rfl
@[simp] theorem bitCounted_trace : (bitCounted s).trace = s.trace := rfl
@[simp] theorem bitCounted_host : (bitCounted s).host = s.host := rfl
@[simp] theorem bitCounted_hostData : (bitCounted s).hostData = s.hostData := rfl

@[simp] theorem State.dropBus_phase : s.dropBus.phase = s.phase := by unfold State.dropBus; split <;> rfl
@[simp] theorem State.dropBus_step : s.dropBus.step = s.step := by unfold State.dropBus; split <;> rfl
@[simp] theorem State.dropBus_byteIdx : s.dropBus.byteIdx = s.byteIdx := by unfold State.dropBus; split <;> rfl
@[simp] theorem State.dropBus_bitIdx : s.dropBus.bitIdx = s.bitIdx := by unfold State.dropBus; split <;> rfl
@[simp] theorem State.dropBus_pollCnt : s.dropBus.pollCnt = s.pollCnt := by unfold State.dropBus; split <;> rfl
@[simp] theorem State.dropBus_cur : s.dropBus.cur = s.cur := by unfold State.dropBus; split <;> rfl
@[simp] theorem State.dropBus_frame : s.dropBus.frame = s.frame := by unfold State.dropBus; split <;> rfl
@[simp] theorem State.dropBus_csum : s.dropBus.csum = s.csum := by unfold State.dropBus; split <;> rfl
@[simp] theorem State.dropBus_lineDir : s.dropBus.lineDir = s.lineDir := by unfold State.dropBus; split <;> rfl
@[simp] theorem State.dropBus_busy : s.dropBus.busy = s.busy := by unfold State.dropBus; split <;> rfl
@[simp] theorem State.dropBus_done : s.dropBus.done = s.done := by unfold State.dropBus; split <;> rfl
@[simp] theorem State.dropBus_kind : s.dropBus.kind = s.kind := by unfold State.dropBus; split <;> rfl
@[simp] theorem State.dropBus_fault : s.dropBus.fault = s.fault := by unfold State.dropBus; split <;> rfl
@[simp] theorem State.dropBus_payload : s.dropBus.payload = s.payload := by unfold State.dropBus; split <;> rfl
@[simp] theorem State.dropBus_temp : s.dropBus.temp = s.temp := by unfold State.dropBus; split <;> rfl
@[simp] theorem State.dropBus_rh : s.dropBus.rh = s.rh := by unfold State.dropBus; split <;> rfl
@[simp] theorem State.dropBus_cfg : s.dropBus.cfg = s.cfg := by unfold State.dropBus; split <;> rfl
@[simp] theorem State.dropBus_delay : s.dropBus.delay = s.delay := by unfold State.dropBus; split <;> rfl
@[simp] theorem State.dropBus_trace : s.dropBus.trace = s.trace := by unfold State.dropBus; split <;> rfl
@[simp] theorem State.dropBus_host : s.dropBus.host = s.host := by unfold State.dropBus; split <;> rfl
@[simp] theorem State.dropBus_hostData : s.dropBus.hostData = s.hostData := by unfold State.dropBus; split <;> rfl
@[simp] theorem State.dropBus_bus : s.dropBus.bus = s.bus.tail := by unfold State.dropBus; split <;> simp_all

@[simp] theorem State.dropOutstanding_phase : s.dropOutstanding.phase = s.phase := by
  unfold State.dropOutstanding; (repeat' split) <;> simp
@[simp] theorem State.dropOutstanding_step : s.dropOutstanding.step = s.step := by
  unfold State.dropOutstanding; (repeat' split) <;> simp
@[simp] theorem State.dropOutstanding_byteIdx : s.dropOutstanding.byteIdx = s.byteIdx := by
  unfold State.dropOutstanding; (repeat' split) <;> simp
@[simp] theorem State.dropOutstanding_bitIdx : s.dropOutstanding.bitIdx = s.bitIdx := by
  unfold State.dropOutstanding; (repeat' split) <;> simp
@[simp] theorem State.dropOutstanding_pollCnt : s.dropOutstanding.pollCnt = s.pollCnt := by
  unfold State.dropOutstanding; (repeat' split) <;> simp
@[simp] theorem State.dropOutstanding_cur : s.dropOutstanding.cur = s.cur := by
  unfold State.dropOutstanding; (repeat' split) <;> simp
@[simp] theorem State.dropOutstanding_frame : s.dropOutstanding.frame = s.frame := by
  unfold State.dropOutstanding; (repeat' split) <;> simp
@[simp] theorem State.dropOutstanding_csum : s.dropOutstanding.csum = s.csum := by
  unfold State.dropOutstanding; (repeat' split) <;> simp
@[simp] theorem State.dropOutstanding_lineDir : s.dropOutstanding.lineDir = s.lineDir := by
  unfold State.dropOutstanding; (repeat' split) <;> simp
@[simp] theorem State.dropOutstanding_busy : s.dropOutstanding.busy = s.busy := by
  unfold State.dropOutstanding; (repeat' split) <;> simp
@[simp] theorem State.dropOutstanding_done : s.dropOutstanding.done = s.done := by
  unfold State.dropOutstanding; (repeat' split) <;> simp
@[simp] theorem State.dropOutstanding_kind : s.dropOutstanding.kind = s.kind := by
  unfold State.dropOutstanding; (repeat' split) <;> simp
@[simp] theorem State.dropOutstanding_fault : s.dropOutstanding.fault = s.fault := by
  unfold State.dropOutstanding; (repeat' split) <;> simp
@[simp] theorem State.dropOutstanding_payload : s.dropOutstanding.payload = s.payload := by
  unfold State.dropOutstanding; (repeat' split) <;> simp
@[simp] theorem State.dropOutstanding_temp : s.dropOutstanding.temp = s.temp := by
  unfold State.dropOutstanding; (repeat' split) <;> simp
@[simp] theorem State.dropOutstanding_rh : s.dropOutstanding.rh = s.rh := by
  unfold State.dropOutstanding; (repeat' split) <;> simp
@[simp] theorem State.dropOutstanding_cfg : s.dropOutstanding.cfg = s.cfg := by
  unfold State.dropOutstanding; (repeat' split) <;> simp
@[simp] theorem State.dropOutstanding_trace : s.dropOutstanding.trace = s.trace := by
  unfold State.dropOutstanding; (repeat' split) <;> simp
@[simp] theorem State.dropOutstanding_host : s.dropOutstanding.host = s.host := by
  unfold State.dropOutstanding; (repeat' split) <;> simp
@[simp] theorem State.dropOutstanding_hostData : s.dropOutstanding.hostData = s.hostData := by
  unfold State.dropOutstanding; (repeat' split) <;> simp

@[simp] theorem State.hardReset_phase : s.hardReset.phase = .idle := rfl
@[simp] theorem State.hardReset_step : s.hardReset.step = .s0 := rfl
@[simp] theorem State.hardReset_byteIdx : s.hardReset.byteIdx = 0 := rfl
@[simp] theorem State.hardReset_bitIdx : s.hardReset.bitIdx = 0 := rfl
@[simp] theorem State.hardReset_pollCnt : s.hardReset.pollCnt = 0 := rfl
@[simp] theorem State.hardReset_cur : s.hardReset.cur = 0 := rfl
@[simp] theorem State.hardReset_frame : s.hardReset.frame = #v[0, 0, 0, 0, 0] := rfl
@[simp] theorem State.hardReset_csum : s.hardReset.csum = 0 := rfl
@[simp] theorem State.hardReset_lineDir : s.hardReset.lineDir = .released := rfl
@[simp] theorem State.hardReset_busy : s.hardReset.busy = false := rfl
@[simp] theorem State.hardReset_done : s.hardReset.done = false := rfl
@[simp] theorem State.hardReset_kind : s.hardReset.kind = .ok := rfl
@[simp] theorem State.hardReset_fault : s.hardReset.fault = 0 := rfl
@[simp] theorem State.hardReset_payload : s.hardReset.payload = 0 := rfl
@[simp] theorem State.hardReset_temp : s.hardReset.temp = 0 := rfl
@[simp] theorem State.hardReset_rh : s.hardReset.rh = 0 := rfl
@[simp] theorem State.hardReset_cfg : s.hardReset.cfg = s.cfg := by simp [State.hardReset]
@[simp] theorem State.hardReset_trace : s.hardReset.trace = s.trace := by simp [State.hardReset]
@[simp] theorem State.hardReset_host : s.hardReset.host = s.host := by simp [State.hardReset]
@[simp] theorem State.hardReset_hostData : s.hardReset.hostData = s.hostData := by simp [State.hardReset]

end Sys2Proof.Machine
end

