-- ==== Sys2Proof/Laws/Ops.lean ====
section
/-! SUPPORT. What the shared operations can do, said once: the line commands, the wait, byte and slot end, START, the two
completions, the host's accesses. -/

namespace Sys2Proof.Machine

variable {s t : State}

/-- A line command always answers a next state. -/
theorem busCommand_is_next (i : Instr) (a : RspWord → Answer) (f : State → State) (k : RspWord → State → State) :
    ∃ u, busCommand i a s f k = .next u := by
  unfold busCommand
  cases s.busReply with
  | silent => exact ⟨_, rfl⟩
  | word r => exact ⟨_, rfl⟩

/-- DRIVE_LOW waits, fails or goes on. -/
theorem driveLow_cases {k : State → State} (h : driveLow s k = .next t) :
    (s.busReply = .silent ∧ t = s) ∨
    (∃ r, s.busReply = .word r ∧ rspFail r = true ∧
      t = ((s.dropBus.record .driveLow (.fail (rspErr r))).setLineDir .unknown).raise (.busFault (rspErr r))) ∨
    (∃ r, s.busReply = .word r ∧ rspFail r = false ∧ t = k ((s.dropBus.record .driveLow .ok).setLineDir .low)) := by
  unfold driveLow busCommand at h
  cases hr : s.busReply with
  | silent => exact .inl ⟨rfl, by simpa [hr] using h.symm⟩
  | word r =>
    cases hf : rspFail r with
    | true => exact .inr (.inl ⟨r, rfl, hf, by simpa [hr, hf, lineAnswer, lineAfterDriveLow] using h.symm⟩)
    | false => exact .inr (.inr ⟨r, rfl, hf, by simpa [hr, hf, lineAnswer, lineAfterDriveLow] using h.symm⟩)

/-- RELEASE waits, fails or goes on. -/
theorem release_cases {k : State → State} (h : release s k = .next t) :
    (s.busReply = .silent ∧ t = s) ∨
    (∃ r, s.busReply = .word r ∧ rspFail r = true ∧
      t = ((s.dropBus.record .release (.fail (rspErr r))).setLineDir .unknown).raise (.busFault (rspErr r))) ∨
    (∃ r, s.busReply = .word r ∧ rspFail r = false ∧ t = k ((s.dropBus.record .release .ok).setLineDir .released)) := by
  unfold release busCommand at h
  cases hr : s.busReply with
  | silent => exact .inl ⟨rfl, by simpa [hr] using h.symm⟩
  | word r =>
    cases hf : rspFail r with
    | true => exact .inr (.inl ⟨r, rfl, hf, by simpa [hr, hf, lineAnswer, lineAfterRelease] using h.symm⟩)
    | false => exact .inr (.inr ⟨r, rfl, hf, by simpa [hr, hf, lineAnswer, lineAfterRelease] using h.symm⟩)

/-- SAMPLE waits, fails or hands its routine a level. -/
theorem sample_cases {k : Bool → State → State} (h : sample s k = .next t) :
    (s.busReply = .silent ∧ t = s) ∨
    (∃ r, s.busReply = .word r ∧ rspFail r = true ∧
      t = (s.dropBus.record .sample (.fail (rspErr r))).raise (.busFault (rspErr r))) ∨
    (∃ r, s.busReply = .word r ∧ rspFail r = false ∧
      t = k (rspLevel r) (s.dropBus.record .sample (.level (rspLevel r)))) := by
  unfold sample busCommand at h
  cases hr : s.busReply with
  | silent => exact .inl ⟨rfl, by simpa [hr] using h.symm⟩
  | word r =>
    cases hf : rspFail r with
    | true => exact .inr (.inl ⟨r, rfl, hf, by simpa [hr, hf, sampleAnswer] using h.symm⟩)
    | false => exact .inr (.inr ⟨r, rfl, hf, by simpa [hr, hf, sampleAnswer] using h.symm⟩)

/-- A wait that answers a next state waits on, or goes on after an `Ok`. -/
theorem waitFor_cases {d : Duration} {k : State → Result} (h : waitFor d s k = .next t) :
    (s.delayReply = .silent ∧ t = s) ∨
    (∃ r, s.delayReply = .word r ∧ rspFail r = false ∧ k (s.dropDelay.record (waitInstr d) .ok) = .next t) := by
  unfold waitFor at h
  cases hr : s.delayReply with
  | silent => exact .inl ⟨rfl, by simpa [hr] using h.symm⟩
  | word r =>
    cases hf : rspFail r with
    | true => simp [hr, hf] at h
    | false => exact .inr ⟨r, rfl, hf, by simpa [hr, hf] using h⟩

/-- Byte end goes to the next byte or to CHECKSUM. -/
theorem byteEnd_cases (h : byteEnd s = .next t) :
    (s.byteIdx.toNat < 4 ∧ t = (byteStored s).goto .bitRead .s0) ∨
    (s.byteIdx.toNat = 4 ∧ t = (byteStored s).goto .checksum .s0) := by
  unfold byteEnd at h
  by_cases h4 : s.byteIdx.toNat < 4
  · exact .inl ⟨h4, by simpa [h4] using h.symm⟩
  · by_cases h5 : s.byteIdx.toNat = 4
    · exact .inr ⟨h5, by simpa [h5] using h.symm⟩
    · simp [h4, h5] at h

/-- Slot end counts the bit or ends the byte. -/
theorem slotEnd_cases (h : slotEnd s = .next t) :
    (s.bitIdx.toNat < 7 ∧ t = (bitCounted s).goto .bitRead .s0) ∨ (s.bitIdx.toNat = 7 ∧ byteEnd s = .next t) := by
  unfold slotEnd at h
  by_cases h7 : s.bitIdx.toNat < 7
  · exact .inl ⟨h7, by simpa [h7] using h.symm⟩
  · exact .inr ⟨by omega, by simpa [h7] using h⟩

/-- A presence sample ends the poll, times out, or is counted. -/
theorem presenceSampled_cases (b : Bool) (s : State) :
    (b = false ∧ presenceSampled b s = s.goto .postReset .s0) ∨
    (b = true ∧ s.pollCnt + 1#16 = s.cfg.presencePolls ∧
      presenceSampled b s = (s.setPollCnt (s.pollCnt + 1#16)).raise .timeout) ∨
    (b = true ∧ s.pollCnt + 1#16 ≠ s.cfg.presencePolls ∧
      presenceSampled b s = (s.setPollCnt (s.pollCnt + 1#16)).goto .presence .s2) := by
  cases b with
  | false => exact .inl ⟨rfl, by simp [presenceSampled]⟩
  | true =>
    by_cases h : s.pollCnt + 1#16 = s.cfg.presencePolls
    · exact .inr (.inl ⟨rfl, h, by simp [presenceSampled, h]⟩)
    · exact .inr (.inr ⟨rfl, h, by simp [presenceSampled, h]⟩)

/-- A sample of a THRESHOLD slot is the end of the loop, times out, or is counted. -/
theorem thresholdSampled_cases (b : Bool) (s : State) :
    (b = true ∧ thresholdSampled b s = (s.setCur (shiftIn s.cur (thresholdBit s))).goto .bitRead .s6) ∨
    (b = false ∧ s.pollCnt + 1#16 = s.cfg.bitPollMax ∧
      thresholdSampled b s = (s.setPollCnt (s.pollCnt + 1#16)).raise .timeout) ∨
    (b = false ∧ s.pollCnt + 1#16 ≠ s.cfg.bitPollMax ∧
      thresholdSampled b s = (s.setPollCnt (s.pollCnt + 1#16)).goto .bitRead .s5) := by
  cases b with
  | true => exact .inl ⟨rfl, by simp [thresholdSampled]⟩
  | false =>
    by_cases h : s.pollCnt + 1#16 = s.cfg.bitPollMax
    · exact .inr (.inl ⟨rfl, h, by simp [thresholdSampled, h]⟩)
    · exact .inr (.inr ⟨rfl, h, by simp [thresholdSampled, h]⟩)

/-- START begins a transaction or does nothing. -/
theorem execStart_cases {v : HostWord} (h : execStart v s = .next t) :
    (v[0] = true ∧ s.busy = false ∧ t = s.begin) ∨ ((v[0] = false ∨ s.busy = true) ∧ t = s) := by
  unfold execStart at h
  cases hv : v[0] <;> cases hb : s.busy <;> simp_all

/-- A host read changes only what the host was given. -/
theorem hostLoad_cases {a n : Nat} (h : hostLoad a n s = .next t) :
    ∃ r, regOfAccess s.cfg.oweBase a n = .ok r ∧ t = { s with hostData := some (readReg s r) } := by
  unfold hostLoad at h
  cases hr : regOfAccess s.cfg.oweBase a n with
  | ok r => exact ⟨r, rfl, by simpa [hr] using h.symm⟩
  | error e => simp [hr] at h

end Sys2Proof.Machine
end

