-- ==== Sys2Proof/Laws/PerInstr.lean ====
section
/-! SUPPORT. Statements made for every instruction, one lemma per constructor. Family TableRow: the encoder's word matches
the instruction's own row of opcode_table.json, by that row's mask and match. -/

namespace Sys2Proof.Laws

/-- The mask and the match of an instruction's row (opcode_table.json). -/
def rowOf : Instr → Nat × Nat
  | .driveLow => (0xFFFFFFFFF, 0x100000000)
  | .release => (0xFFFFFFFFF, 0x200000000)
  | .sample => (0xFFFFFFFFF, 0x300000000)
  | .delayUs _ => (0xF00000000, 0x400000000)
  | .delayMs _ => (0xF00000000, 0x500000000)
  | .start _ => (0x00000001, 0x00000001)
  | .reset => (0x0F, 0x01)
  | .presence => (0x0F, 0x02)
  | .postReset => (0x0F, 0x03)
  | .bitReadL => (0x1F, 0x04)
  | .bitReadT => (0x1F, 0x14)
  | .checksumValidate => (0x0F, 0x05)
  | .decode => (0x0F, 0x06)

/-- A word matches a mask and a match of its own format. -/
def wordMatches (w : InstrWord) (row : Nat × Nat) : Bool :=
  match w with
  | .cw c => c &&& BitVec.ofNat 36 row.1 == BitVec.ofNat 36 row.2
  | .host v => v &&& BitVec.ofNat 32 row.1 == BitVec.ofNat 32 row.2
  | .phase k => k &&& BitVec.ofNat 5 row.1 == BitVec.ofNat 5 row.2

namespace TableRow

/-- The word of a well-formed instruction matches its row. -/
def Statement (i : Instr) : Prop := i.wellFormed = true → wordMatches (encode i) (rowOf i) = true

theorem driveLow : Statement .driveLow := fun _ => by decide

theorem release : Statement .release := fun _ => by decide

theorem sample : Statement .sample := fun _ => by decide

/-- Masking a command word to its opcode. -/
theorem cmdWord_masked (op : BitVec 4) (n : BitVec 32) : cmdWord op n &&& 0xF00000000#36 = cmdWord op 0 := by
  have h : (0xF00000000#36 : CmdWord) = (0xF#4 ++ 0#32 : BitVec 36) := by decide
  have h4 : ∀ op : BitVec 4, op &&& 0xF#4 = op := by decide
  rw [h]
  simp only [cmdWord]
  rw [BitVec.and_append, h4]
  simp

theorem delayUs (n : BitVec 32) : Statement (.delayUs n) := fun _ => by
  simp only [wordMatches, encode, rowOf, beq_iff_eq]
  exact cmdWord_masked 4 n

theorem delayMs (n : BitVec 32) : Statement (.delayMs n) := fun _ => by
  simp only [wordMatches, encode, rowOf, beq_iff_eq]
  exact cmdWord_masked 5 n

theorem start (v : HostWord) : Statement (.start v) := fun h => by
  simp only [Instr.wellFormed] at h
  simp only [wordMatches, encode, rowOf, beq_iff_eq]
  ext i hi
  by_cases h0 : i = 0
  · subst h0; simpa using h
  · simp [h0]

theorem reset : Statement .reset := fun _ => by decide

theorem presence : Statement .presence := fun _ => by decide

theorem postReset : Statement .postReset := fun _ => by decide

theorem bitReadL : Statement .bitReadL := fun _ => by decide

theorem bitReadT : Statement .bitReadT := fun _ => by decide

theorem checksumValidate : Statement .checksumValidate := fun _ => by decide

theorem decode : Statement .decode := fun _ => by decide

end TableRow

end Sys2Proof.Laws
end

