-- ==== Sys2Proof/Laws/Step.lean ====
section
/-! SUPPORT. What one step of the machine can do: the engine's turn by phase, the host's events, and that every fetched word
decodes. -/

namespace Sys2Proof.Machine

variable {s t : State}

/-- The engine's turn: the routine of the phase, while BUSY = 1. -/
def engineTurn (s : State) : Result :=
  if s.busy then
    match s.phase with
    | .idle => .next s
    | .reset => execReset s
    | .presence => execPresence s
    | .postReset => execPostReset s
    | .bitRead => match s.cfg.sampleMode with
      | .level => execBitReadL s
      | .threshold => execBitReadT s
    | .checksum => execChecksumValidate s
    | .decode => execDecode s
  else .next s

/-- The word the engine fetches is always an instruction: its routine. -/
theorem sequencerKey_decodes (h : s.phase ≠ .idle) :
    decode (.phase (sequencerKey s)) = .ok (match s.phase with
      | .idle => .reset
      | .reset => .reset
      | .presence => .presence
      | .postReset => .postReset
      | .bitRead => match s.cfg.sampleMode with
        | .level => .bitReadL
        | .threshold => .bitReadT
      | .checksum => .checksumValidate
      | .decode => .decode) := by
  cases hp : s.phase with
  | idle => exact absurd hp h
  | _ => cases hm : s.cfg.sampleMode <;> simp [decode, sequencerKey, hp, hm, Phase.code] <;> decide

/-- What a step does with what was fetched. -/
def runFetched (f : Fetched) : Result :=
  match f with
  | .plain r => r
  | .instr w t =>
    match decode w with
    | .ok i => exec i t
    | .error e => .refused (.noInstruction e)

theorem step_eq (s : State) : step s = runFetched (fetch s) := rfl

theorem runFetched_engine (s : State) : runFetched (engineFetch s) = engineTurn s := by
  unfold engineFetch engineTurn
  cases hb : s.busy with
  | false => simp [runFetched]
  | true =>
    cases hp : s.phase with
    | idle => simp [runFetched]
    | bitRead =>
      have := sequencerKey_decodes (s := s) (by simp [hp])
      cases hm : s.cfg.sampleMode <;> simp_all [runFetched, exec]
    | _ =>
      have := sequencerKey_decodes (s := s) (by simp [hp])
      simp_all [runFetched, exec]

/-- With nothing scheduled by the host, a step is the engine's turn. -/
theorem step_of_no_host (h : s.host = []) : step s = engineTurn s := by
  rw [step_eq, ← runFetched_engine]; simp [fetch, h]

/-- So it is when the host lets the engine take its turn. -/
theorem step_of_run {rest : List HostEvent} (h : s.host = .run :: rest) : step s = engineTurn { s with host := rest } := by
  rw [step_eq, ← runFetched_engine]; simp [fetch, h, hostFetch]

/-- A host event other than `run`, answered with a next state: START, a read, an ignored access, the reset input. -/
theorem hostFetch_cases {e : HostEvent} (h : runFetched (hostFetch e s) = .next t) :
    (e = .run ∧ engineTurn s = .next t) ∨ (s.busy = false ∧ t = s.begin) ∨
    (∃ r, t = { s with hostData := some (readReg s r) }) ∨ t = s ∨ (e = .resetInput ∧ t = s.hardReset) := by
  cases e with
  | run => exact .inl ⟨rfl, by rw [← runFetched_engine]; exact h⟩
  | load a n =>
    obtain ⟨r, -, rfl⟩ := hostLoad_cases (s := s) (a := a) (n := n) (by simpa [hostFetch, runFetched] using h)
    exact .inr (.inr (.inl ⟨r, rfl⟩))
  | store a n v =>
    simp only [hostFetch, hostStore] at h
    cases hr : regOfAccess s.cfg.oweBase a n with
    | error e => simp [hr, runFetched] at h
    | ok r =>
      cases r with
      | ctrl =>
        cases hv : v[0] with
        | false => simp [hr, runFetched, hv] at h; exact .inr (.inr (.inr (.inl h.symm)))
        | true =>
          have h' : execStart v s = .next t := by simpa [hr, runFetched, hv, decode, decodeHostWord, exec] using h
          obtain ⟨-, hb, rfl⟩ | ⟨-, rfl⟩ := execStart_cases h'
          · exact .inr (.inl ⟨hb, rfl⟩)
          · exact .inr (.inr (.inr (.inl rfl)))
      | _ => simp [hr, runFetched] at h; exact .inr (.inr (.inr (.inl h.symm)))
  | resetInput => exact .inr (.inr (.inr (.inr ⟨rfl, by simpa [hostFetch, runFetched] using h.symm⟩)))
  | foreignUse =>
    simp only [hostFetch, runFetched, foreignUse] at h
    cases hb : s.busy <;> simp [hb] at h
    exact .inr (.inr (.inr (.inl h.symm)))

/-- Everything a step can do, in the state `u` whose schedule is past the event the step consumes. -/
theorem step_cases (h : step s = .next t) :
    ∃ u, (u = s ∨ ∃ e rest, s.host = e :: rest ∧ u = { s with host := rest }) ∧
      (engineTurn u = .next t ∨ (u.busy = false ∧ t = u.begin) ∨
        (∃ r, t = { u with hostData := some (readReg u r) }) ∨ t = u ∨ t = u.hardReset) := by
  rw [step_eq] at h
  cases hs : s.host with
  | nil =>
    have h' : engineTurn s = .next t := by rw [← runFetched_engine]; simpa [fetch, hs] using h
    exact ⟨s, .inl rfl, .inl h'⟩
  | cons e rest =>
    have h' : runFetched (hostFetch e { s with host := rest }) = .next t := by simpa [fetch, hs] using h
    refine ⟨_, .inr ⟨e, rest, rfl, rfl⟩, ?_⟩
    obtain ⟨-, h1⟩ | h1 | h1 | h1 | ⟨-, h1⟩ := hostFetch_cases h'
    · exact .inl h1
    · exact .inr (.inl h1)
    · exact .inr (.inr (.inl h1))
    · exact .inr (.inr (.inr (.inl h1)))
    · exact .inr (.inr (.inr (.inr h1)))

/-- No fetched word is refused as no instruction. -/
theorem fetch_decodes {w : InstrWord} (h : fetch s = .instr w t) : ∃ i, decode w = .ok i := by
  have engine : ∀ u : State, engineFetch u = .instr w t → ∃ i, decode w = .ok i := by
    intro u hu
    unfold engineFetch at hu
    split at hu
    · rename_i hc
      obtain ⟨rfl, -⟩ := by simpa using hu
      exact ⟨_, sequencerKey_decodes (by intro hi; simp [hi] at hc)⟩
    · simp at hu
  unfold fetch at h
  split at h
  · exact engine s h
  · rename_i e rest _
    cases e with
    | run => exact engine _ h
    | store a n v =>
      simp only [hostFetch, hostStore] at h
      split at h
      · cases hv : v[0] with
        | false => simp [hv] at h
        | true =>
          rw [if_pos hv] at h
          cases h
          exact ⟨.start v, by simp [decode, decodeHostWord, hv]⟩
      all_goals simp at h
    | _ => simp [hostFetch] at h

end Sys2Proof.Machine
end

