-- ==== Sys2Proof/Laws/Run.lean ====
section
/-! SUPPORT. Runs of several steps: their equations, how they compose, and induction over runs and over reachable states. -/

namespace Sys2Proof.Machine

variable {s t u : State}

@[simp] theorem run_zero (s : State) : Sys2Proof.core.run 0 s = .next s := rfl

theorem run_succ_of_step (n : Nat) (h : step s = .next t) :
    Sys2Proof.core.run (n + 1) s = Sys2Proof.core.run n t := by
  have h' : Sys2Proof.core.step s = .next t := h
  simp only [Host.Core.run]
  rw [h']

/-- A run of `n + 1` steps that answers a next state is a step and a run of `n`. -/
theorem run_succ_cases (n : Nat) (h : Sys2Proof.core.run (n + 1) s = .next t) :
    ∃ v, step s = .next v ∧ Sys2Proof.core.run n v = .next t := by
  cases hs : step s with
  | next v => exact ⟨v, rfl, by rw [← run_succ_of_step n hs]; exact h⟩
  | fault r => exact nomatch r
  | refused r =>
    have hs' : Sys2Proof.core.step s = .refused r := hs
    simp only [Host.Core.run] at h
    rw [hs'] at h
    cases h

/-- Runs compose. -/
theorem run_add (m n : Nat) (h : Sys2Proof.core.run m s = .next t) (h' : Sys2Proof.core.run n t = .next u) :
    Sys2Proof.core.run (m + n) s = .next u := by
  induction m generalizing s with
  | zero => cases h; simpa using h'
  | succ m ih =>
    obtain ⟨v, hv, hr⟩ := run_succ_cases m h
    rw [show m + 1 + n = (m + n) + 1 by omega, run_succ_of_step _ hv]
    exact ih hr

/-- What every step keeps, every run keeps. -/
theorem run_induction {P : State → Prop} (hstep : ∀ s t, P s → step s = .next t → P t) (n : Nat)
    (hs : P s) (h : Sys2Proof.core.run n s = .next t) : P t := by
  induction n generalizing s with
  | zero => cases h; exact hs
  | succ n ih =>
    obtain ⟨v, hv, hr⟩ := run_succ_cases n h
    exact ih (hstep s v hs hv) hr

/-- What holds after reset and is kept by every step holds in every reachable state. -/
theorem reachable_induction {P : State → Prop} (hinit : ∀ c bus delay host, cfgLegal c = true → P (initial c bus delay host))
    (hstep : ∀ s t, P s → step s = .next t → P t) (h : Reachable s) : P s := by
  obtain ⟨c, bus, delay, host, n, hc, hr⟩ := h
  exact run_induction hstep n (hinit c bus delay host hc) hr

end Sys2Proof.Machine
end

