-- ==== Sys2Proof/Laws/Turn.lean ====
section
/-! SUPPORT. The engine's turn as a relation, one constructor per row of the transition table (43_frame_checksum_read.md
R166), with the failure rows it leaves out; every turn that answers a next state is one of these. -/

namespace Sys2Proof.Machine

/-- The command at the position has been answered by the Bus Line. -/
abbrev State.lineTold (s : State) (i : Instr) (a : Answer) : State := s.dropBus.record i a

/-- The wait at the position is over. -/
abbrev State.waited (s : State) (d : Duration) : State := s.dropDelay.record (waitInstr d) .ok

/-- A row of the transition table, taken from `s`. -/
inductive Turn (s : State) : State → Prop
  | stay : Turn s s
  | lowFails (e : Byte) (hb : s.busy = true) (hp : s.phase = .reset ∨ s.phase = .bitRead) (hk : s.step = .s0) :
      Turn s (((s.lineTold .driveLow (.fail e)).setLineDir .unknown).raise (.busFault e))
  | releaseFails (e : Byte) (hb : s.busy = true) (hp : s.phase = .reset ∨ s.phase = .bitRead) (hk : s.step = .s2) :
      Turn s (((s.lineTold .release (.fail e)).setLineDir .unknown).raise (.busFault e))
  | sampleFails (e : Byte) (hb : s.busy = true)
      (hp : (s.phase = .presence ∧ s.step = .s1) ∨ (s.phase = .bitRead ∧ s.step = .s4)) :
      Turn s ((s.lineTold .sample (.fail e)).raise (.busFault e))
  | resetLow (hb : s.busy = true) (hp : s.phase = .reset) (hk : s.step = .s0) :
      Turn s (((s.lineTold .driveLow .ok).setLineDir .low).goto .reset .s1)
  | resetHold (hb : s.busy = true) (hp : s.phase = .reset) (hk : s.step = .s1) :
      Turn s ((s.waited s.cfg.tResetLow).goto .reset .s2)
  | resetToPresence (hb : s.busy = true) (hp : s.phase = .reset) (hk : s.step = .s2)
      (hc : s.cfg.presenceCheck = true) :
      Turn s (((s.lineTold .release .ok).setLineDir .released).goto .presence .s0)
  | resetToPostReset (hb : s.busy = true) (hp : s.phase = .reset) (hk : s.step = .s2)
      (hc : s.cfg.presenceCheck = false) :
      Turn s (((s.lineTold .release .ok).setLineDir .released).goto .postReset .s0)
  | presenceDelay (hb : s.busy = true) (hp : s.phase = .presence) (hk : s.step = .s0) :
      Turn s (((s.waited s.cfg.tPresenceDelay).setPollCnt 0).goto .presence .s1)
  | presenceSeen (hb : s.busy = true) (hp : s.phase = .presence) (hk : s.step = .s1) :
      Turn s ((s.lineTold .sample (.level false)).goto .postReset .s0)
  | presenceTimeout (hb : s.busy = true) (hp : s.phase = .presence) (hk : s.step = .s1)
      (hl : presencePollsLegal s.cfg = true) (hc : s.pollCnt + 1#16 = s.cfg.presencePolls) :
      Turn s (((s.lineTold .sample (.level true)).setPollCnt (s.pollCnt + 1#16)).raise .timeout)
  | presenceCounted (hb : s.busy = true) (hp : s.phase = .presence) (hk : s.step = .s1)
      (hl : presencePollsLegal s.cfg = true) (hc : s.pollCnt + 1#16 ≠ s.cfg.presencePolls) :
      Turn s (((s.lineTold .sample (.level true)).setPollCnt (s.pollCnt + 1#16)).goto .presence .s2)
  | presencePoll (hb : s.busy = true) (hp : s.phase = .presence) (hk : s.step = .s2) :
      Turn s ((s.waited s.cfg.tPresencePoll).goto .presence .s1)
  | postReset (hb : s.busy = true) (hp : s.phase = .postReset) (hk : s.step = .s0) :
      Turn s ((s.waited s.cfg.tPostReset).goto .bitRead .s0)
  | slotOpen (hb : s.busy = true) (hp : s.phase = .bitRead) (hk : s.step = .s0) :
      Turn s (((s.lineTold .driveLow .ok).setLineDir .low).goto .bitRead .s1)
  | slotHold (hb : s.busy = true) (hp : s.phase = .bitRead) (hk : s.step = .s1) :
      Turn s ((s.waited s.cfg.tSlotLow).goto .bitRead .s2)
  | slotRelease (hb : s.busy = true) (hp : s.phase = .bitRead) (hk : s.step = .s2) :
      Turn s (((s.lineTold .release .ok).setLineDir .released).goto .bitRead .s3)
  | settleLevel (hb : s.busy = true) (hp : s.phase = .bitRead) (hk : s.step = .s3) (hm : s.cfg.sampleMode = .level) :
      Turn s ((s.waited s.cfg.tSettle).goto .bitRead .s4)
  | settleThreshold (hb : s.busy = true) (hp : s.phase = .bitRead) (hk : s.step = .s3)
      (hm : s.cfg.sampleMode = .threshold) :
      Turn s (((s.waited s.cfg.tSettle).setPollCnt 0).goto .bitRead .s4)
  | levelBit (b : Bool) (hb : s.busy = true) (hp : s.phase = .bitRead) (hk : s.step = .s4)
      (hm : s.cfg.sampleMode = .level) :
      Turn s (((s.lineTold .sample (.level b)).setCur (shiftIn s.cur b)).goto .bitRead .s6)
  | thresholdBit (hb : s.busy = true) (hp : s.phase = .bitRead) (hk : s.step = .s4)
      (hm : s.cfg.sampleMode = .threshold) :
      Turn s (((s.lineTold .sample (.level true)).setCur (shiftIn s.cur (thresholdBit s))).goto .bitRead .s6)
  | thresholdTimeout (hb : s.busy = true) (hp : s.phase = .bitRead) (hk : s.step = .s4)
      (hm : s.cfg.sampleMode = .threshold) (hl : bitLimitsLegal s.cfg = true) (hc : s.pollCnt + 1#16 = s.cfg.bitPollMax) :
      Turn s (((s.lineTold .sample (.level false)).setPollCnt (s.pollCnt + 1#16)).raise .timeout)
  | thresholdCounted (hb : s.busy = true) (hp : s.phase = .bitRead) (hk : s.step = .s4)
      (hm : s.cfg.sampleMode = .threshold) (hl : bitLimitsLegal s.cfg = true) (hc : s.pollCnt + 1#16 ≠ s.cfg.bitPollMax) :
      Turn s (((s.lineTold .sample (.level false)).setPollCnt (s.pollCnt + 1#16)).goto .bitRead .s5)
  | thresholdPoll (hb : s.busy = true) (hp : s.phase = .bitRead) (hk : s.step = .s5)
      (hm : s.cfg.sampleMode = .threshold) :
      Turn s ((s.waited s.cfg.tBitPoll).goto .bitRead .s4)
  | nextBit (hb : s.busy = true) (hp : s.phase = .bitRead) (hk : s.step = .s6) (hi : s.bitIdx.toNat < 7) :
      Turn s ((bitCounted (s.waited s.cfg.tRecovery)).goto .bitRead .s0)
  | nextByte (hb : s.busy = true) (hp : s.phase = .bitRead) (hk : s.step = .s6) (hi : s.bitIdx.toNat = 7)
      (hj : s.byteIdx.toNat < 4) :
      Turn s ((byteStored (s.waited s.cfg.tRecovery)).goto .bitRead .s0)
  | frameEnd (hb : s.busy = true) (hp : s.phase = .bitRead) (hk : s.step = .s6) (hi : s.bitIdx.toNat = 7)
      (hj : s.byteIdx.toNat = 4) :
      Turn s ((byteStored (s.waited s.cfg.tRecovery)).goto .checksum .s0)
  | sumGood (hb : s.busy = true) (hp : s.phase = .checksum) (hk : s.step = .s0) (hc : s.csum = s.frame[4]) :
      Turn s (s.goto .decode .s0)
  | sumBad (hb : s.busy = true) (hp : s.phase = .checksum) (hk : s.step = .s0) (hc : s.csum ≠ s.frame[4]) :
      Turn s (s.raise .checksumMismatch)
  | decoded (hb : s.busy = true) (hp : s.phase = .decode) (hk : s.step = .s0) :
      Turn s (s.succeed s.frame[0] (signMagnitude s.frame[2]))

variable {s t : State}

theorem turn_of_reset (hb : s.busy = true) (hp : s.phase = .reset) (h : execReset s = .next t) : Turn s t := by
  unfold execReset at h
  cases hk : s.step <;> simp only [hk] at h <;> try contradiction
  case s0 =>
    obtain ⟨-, rfl⟩ | ⟨r, -, -, rfl⟩ | ⟨r, -, -, rfl⟩ := driveLow_cases h
    exacts [.stay, .lowFails _ hb (.inl hp) hk, .resetLow hb hp hk]
  case s1 =>
    obtain ⟨-, rfl⟩ | ⟨r, -, -, h⟩ := waitFor_cases h
    · exact .stay
    · cases h; exact .resetHold hb hp hk
  case s2 =>
    obtain ⟨-, rfl⟩ | ⟨r, -, -, rfl⟩ | ⟨r, -, -, rfl⟩ := release_cases h
    · exact .stay
    · exact .releaseFails _ hb (.inl hp) hk
    · cases hc : s.cfg.presenceCheck with
      | true => simpa [afterResetPulse, hc] using Turn.resetToPresence hb hp hk hc
      | false => simpa [afterResetPulse, hc] using Turn.resetToPostReset hb hp hk hc

theorem turn_of_presence (hb : s.busy = true) (hp : s.phase = .presence) (h : execPresence s = .next t) : Turn s t := by
  unfold execPresence at h
  cases hk : s.step <;> simp only [hk] at h <;> try contradiction
  case s0 =>
    obtain ⟨-, rfl⟩ | ⟨r, -, -, h⟩ := waitFor_cases h
    · exact .stay
    · cases h; exact .presenceDelay hb hp hk
  case s1 =>
    cases hl : presencePollsLegal s.cfg with
    | false => simp [hl] at h
    | true =>
      rw [if_pos hl] at h
      obtain ⟨-, rfl⟩ | ⟨r, -, -, rfl⟩ | ⟨r, -, -, rfl⟩ := sample_cases h
      · exact .stay
      · exact .sampleFails _ hb (.inl ⟨hp, hk⟩)
      · obtain ⟨hb', e⟩ | ⟨hb', hc, e⟩ | ⟨hb', hc, e⟩ := presenceSampled_cases (rspLevel r)
          (s.dropBus.record .sample (.level (rspLevel r)))
        all_goals rw [e, hb']
        · exact .presenceSeen hb hp hk
        · simpa using Turn.presenceTimeout hb hp hk hl (by simpa using hc)
        · simpa using Turn.presenceCounted hb hp hk hl (by simpa using hc)
  case s2 =>
    obtain ⟨-, rfl⟩ | ⟨r, -, -, h⟩ := waitFor_cases h
    · exact .stay
    · cases h; exact .presencePoll hb hp hk

theorem turn_of_postReset (hb : s.busy = true) (hp : s.phase = .postReset) (h : execPostReset s = .next t) :
    Turn s t := by
  unfold execPostReset at h
  cases hk : s.step <;> simp only [hk] at h <;> try contradiction
  case s0 =>
    obtain ⟨-, rfl⟩ | ⟨r, -, -, h⟩ := waitFor_cases h
    · exact .stay
    · cases h; exact .postReset hb hp hk

theorem turn_of_slotOpen (hb : s.busy = true) (hp : s.phase = .bitRead) (hk : s.step = .s0)
    (h : slotOpen s = .next t) : Turn s t := by
  obtain ⟨-, rfl⟩ | ⟨r, -, -, rfl⟩ | ⟨r, -, -, rfl⟩ := driveLow_cases h
  exacts [.stay, .lowFails _ hb (.inr hp) hk, .slotOpen hb hp hk]

theorem turn_of_slotHold (hb : s.busy = true) (hp : s.phase = .bitRead) (hk : s.step = .s1)
    (h : slotHold s = .next t) : Turn s t := by
  obtain ⟨-, rfl⟩ | ⟨r, -, -, h⟩ := waitFor_cases h
  · exact .stay
  · cases h; exact .slotHold hb hp hk

theorem turn_of_slotRelease (hb : s.busy = true) (hp : s.phase = .bitRead) (hk : s.step = .s2)
    (h : slotRelease s = .next t) : Turn s t := by
  obtain ⟨-, rfl⟩ | ⟨r, -, -, rfl⟩ | ⟨r, -, -, rfl⟩ := release_cases h
  exacts [.stay, .releaseFails _ hb (.inr hp) hk, .slotRelease hb hp hk]

theorem turn_of_slotRecover (hb : s.busy = true) (hp : s.phase = .bitRead) (hk : s.step = .s6)
    (h : slotRecover s = .next t) : Turn s t := by
  obtain ⟨-, rfl⟩ | ⟨r, -, -, h⟩ := waitFor_cases h
  · exact .stay
  · obtain ⟨hi, rfl⟩ | ⟨hi, h⟩ := slotEnd_cases h
    · exact .nextBit hb hp hk (by simpa using hi)
    · obtain ⟨hj, rfl⟩ | ⟨hj, rfl⟩ := byteEnd_cases h
      · exact .nextByte hb hp hk (by simpa using hi) (by simpa using hj)
      · exact .frameEnd hb hp hk (by simpa using hi) (by simpa using hj)

theorem turn_of_bitReadL (hb : s.busy = true) (hp : s.phase = .bitRead) (hm : s.cfg.sampleMode = .level)
    (h : execBitReadL s = .next t) : Turn s t := by
  unfold execBitReadL at h
  cases hk : s.step <;> simp only [hk] at h <;> try contradiction
  case s0 => exact turn_of_slotOpen hb hp hk h
  case s1 => exact turn_of_slotHold hb hp hk h
  case s2 => exact turn_of_slotRelease hb hp hk h
  case s3 =>
    obtain ⟨-, rfl⟩ | ⟨r, -, -, h⟩ := waitFor_cases h
    · exact .stay
    · cases h; exact .settleLevel hb hp hk hm
  case s4 =>
    obtain ⟨-, rfl⟩ | ⟨r, -, -, rfl⟩ | ⟨r, -, -, rfl⟩ := sample_cases h
    · exact .stay
    · exact .sampleFails _ hb (.inr ⟨hp, hk⟩)
    · simpa [levelSampled] using Turn.levelBit (rspLevel r) hb hp hk hm
  case s6 => exact turn_of_slotRecover hb hp hk h

theorem turn_of_bitReadT (hb : s.busy = true) (hp : s.phase = .bitRead) (hm : s.cfg.sampleMode = .threshold)
    (h : execBitReadT s = .next t) : Turn s t := by
  unfold execBitReadT at h
  cases hk : s.step <;> simp only [hk] at h
  case s0 => exact turn_of_slotOpen hb hp hk h
  case s1 => exact turn_of_slotHold hb hp hk h
  case s2 => exact turn_of_slotRelease hb hp hk h
  case s3 =>
    obtain ⟨-, rfl⟩ | ⟨r, -, -, h⟩ := waitFor_cases h
    · exact .stay
    · cases h; exact .settleThreshold hb hp hk hm
  case s4 =>
    cases hl : bitLimitsLegal s.cfg with
    | false => simp [hl] at h
    | true =>
      rw [if_pos hl] at h
      obtain ⟨-, rfl⟩ | ⟨r, -, -, rfl⟩ | ⟨r, -, -, rfl⟩ := sample_cases h
      · exact .stay
      · exact .sampleFails _ hb (.inr ⟨hp, hk⟩)
      · obtain ⟨hb', e⟩ | ⟨hb', hc, e⟩ | ⟨hb', hc, e⟩ := thresholdSampled_cases (rspLevel r)
          (s.dropBus.record .sample (.level (rspLevel r)))
        all_goals rw [e, hb']
        · simpa [Sys2Proof.Machine.thresholdBit] using Turn.thresholdBit hb hp hk hm
        · simpa using Turn.thresholdTimeout hb hp hk hm hl (by simpa using hc)
        · simpa using Turn.thresholdCounted hb hp hk hm hl (by simpa using hc)
  case s5 =>
    obtain ⟨-, rfl⟩ | ⟨r, -, -, h⟩ := waitFor_cases h
    · exact .stay
    · cases h; exact .thresholdPoll hb hp hk hm
  case s6 => exact turn_of_slotRecover hb hp hk h

theorem turn_of_checksum (hb : s.busy = true) (hp : s.phase = .checksum) (h : execChecksumValidate s = .next t) :
    Turn s t := by
  unfold execChecksumValidate at h
  cases hk : s.step <;> simp only [hk] at h <;> try contradiction
  case s0 =>
    by_cases hc : s.csum = s.frame[4]
    · obtain rfl : t = s.goto .decode .s0 := by simpa [checksumEqual, hc] using h.symm
      exact .sumGood hb hp hk hc
    · obtain rfl : t = s.raise .checksumMismatch := by simpa [checksumEqual, hc] using h.symm
      exact .sumBad hb hp hk hc

theorem turn_of_decode (hb : s.busy = true) (hp : s.phase = .decode) (h : execDecode s = .next t) : Turn s t := by
  unfold execDecode at h
  cases hk : s.step <;> simp only [hk] at h <;> try contradiction
  case s0 => cases h; exact .decoded hb hp hk

/-- Every turn of the engine that answers a next state is a row of the table. -/
theorem turn_of_engineTurn (h : engineTurn s = .next t) : Turn s t := by
  unfold engineTurn at h
  cases hb : s.busy with
  | false => simp [hb] at h; exact h ▸ .stay
  | true =>
    rw [if_pos hb] at h
    cases hp : s.phase <;> simp only [hp] at h
    case idle => cases h; exact .stay
    case reset => exact turn_of_reset hb hp h
    case presence => exact turn_of_presence hb hp h
    case postReset => exact turn_of_postReset hb hp h
    case bitRead =>
      cases hm : s.cfg.sampleMode <;> simp only [hm] at h
      case level => exact turn_of_bitReadL hb hp hm h
      case threshold => exact turn_of_bitReadT hb hp hm h
    case checksum => exact turn_of_checksum hb hp h
    case decode => exact turn_of_decode hb hp h

/-- What a row does to the trace: nothing, or one entry for the command of the position. -/
theorem turn_trace (h : Turn s t) :
    t.trace = s.trace ∨ ∃ c a, s.command = some c ∧ t.trace = s.trace ++ [⟨portWord c, a⟩] := by
  cases h
  case stay => exact .inl rfl
  case sumGood => exact .inl rfl
  case sumBad => exact .inl rfl
  case decoded => exact .inl rfl
  case lowFails hb hp hk =>
    rcases hp with hp | hp <;> exact .inr ⟨.driveLow, .fail _, by simp [State.command, hp, hk], by simp; rfl⟩
  case releaseFails hb hp hk =>
    rcases hp with hp | hp <;> exact .inr ⟨.release, .fail _, by simp [State.command, hp, hk], by simp; rfl⟩
  case sampleFails hb hp =>
    rcases hp with ⟨hp, hk⟩ | ⟨hp, hk⟩ <;>
      exact .inr ⟨.sample, .fail _, by simp [State.command, hp, hk], by simp; rfl⟩
  all_goals
    refine .inr ⟨_, _, ?_, by simp [byteStored, bitCounted]; exact ⟨rfl, rfl⟩⟩
    simp [State.command, *]

end Sys2Proof.Machine
end

