-- ==== Sys2Proof/Laws/Words.lean ====
section
/-! SUPPORT. The small lemmas of the word definitions: command words, shift-in, FRAME stores, byte sums. -/

namespace Sys2Proof

/-- The bits of a command word. -/
theorem cmdWord_getLsbD (op : BitVec 4) (n : BitVec 32) (i : Nat) :
    (cmdWord op n).getLsbD i = if i < 32 then n.getLsbD i else op.getLsbD (i - 32) :=
  BitVec.getLsbD_append

@[simp] theorem cmdOp_cmdWord (op : BitVec 4) (n : BitVec 32) : cmdOp (cmdWord op n) = op := by
  apply BitVec.eq_of_getLsbD_eq
  intro i hi
  simp [cmdOp, cmdWord_getLsbD, hi]

@[simp] theorem cmdOperand_cmdWord (op : BitVec 4) (n : BitVec 32) : cmdOperand (cmdWord op n) = n := by
  apply BitVec.eq_of_getLsbD_eq
  intro i hi
  simp [cmdOperand, cmdWord_getLsbD, hi]

/-- A command word is its two fields. -/
theorem cmdWord_eta (w : CmdWord) : cmdWord (cmdOp w) (cmdOperand w) = w := by
  apply BitVec.eq_of_getLsbD_eq
  intro i hi
  rw [cmdWord_getLsbD]
  split
  · rename_i h
    simp [cmdOperand, h]
  · rename_i h
    have h4 : i - 32 < 4 := by omega
    have e : 32 + (i - 32) = i := by omega
    simp [cmdOp, h4, e]

/-- The decoder by opcode and operand. -/
theorem decodeCommand_cmdWord (op : BitVec 4) (n : BitVec 32) :
    decodeCommand (cmdWord op n) =
      if op = 1 then (if n = 0 then .ok .driveLow else .error (.operandNotZero op n))
      else if op = 2 then (if n = 0 then .ok .release else .error (.operandNotZero op n))
      else if op = 3 then (if n = 0 then .ok .sample else .error (.operandNotZero op n))
      else if op = 4 then .ok (.delayUs n)
      else if op = 5 then .ok (.delayMs n)
      else .error (.reservedOpcode op) := by
  have h : ∀ op : BitVec 4, (op.toNat = 1 ∧ op = 1) ∨ (op.toNat = 2 ∧ op = 2) ∨ (op.toNat = 3 ∧ op = 3) ∨
      (op.toNat = 4 ∧ op = 4) ∨ (op.toNat = 5 ∧ op = 5) ∨
      (op ≠ 1 ∧ op ≠ 2 ∧ op ≠ 3 ∧ op ≠ 4 ∧ op ≠ 5 ∧ (op.toNat = 0 ∨ 6 ≤ op.toNat)) := by decide
  unfold decodeCommand plainCommand
  simp only [cmdOp_cmdWord, cmdOperand_cmdWord]
  obtain ⟨e, rfl⟩ | ⟨e, rfl⟩ | ⟨e, rfl⟩ | ⟨e, rfl⟩ | ⟨e, rfl⟩ | ⟨h1, h2, h3, h4, h5, h6⟩ := h op
  all_goals try simp
  simp only [BitVec.ofNat_eq_ofNat] at h1 h2 h3 h4 h5
  rw [if_neg h1, if_neg h2, if_neg h3, if_neg h4, if_neg h5]
  split <;> first | omega | rfl

namespace Machine

/-- Shift-in doubles and adds, modulo 256. -/
theorem shiftIn_toNat (c : Byte) (b : Bool) : (shiftIn c b).toNat = (2 * c.toNat + b.toNat) % 256 := by
  revert c b; decide

/-- Shift-in of a value that leaves room at the top. -/
theorem shiftIn_toNat_of_lt {c : Byte} {b : Bool} {k : Nat} (hc : c.toNat < 2 ^ k) :
    (shiftIn c b).toNat < 2 ^ (k + 1) := by
  rw [shiftIn_toNat]
  have h1 : b.toNat ≤ 1 := Bool.toNat_le b
  have h2 := Nat.mod_le (2 * c.toNat + b.toNat) 256
  rw [Nat.pow_succ]
  omega

/-- Reading FRAME after a store. -/
theorem storeFrame_get (f : Vector Byte 5) (k : BitVec 3) (b : Byte) (j : Nat) (hj : j < 5) :
    (storeFrame f k b)[j] = if j = k.toNat then b else f[j] := by
  simp only [storeFrame, Vector.getElem_setIfInBounds]
  by_cases h : k.toNat = j
  · simp [h]
  · simp [h, Ne.symm h]

end Machine

end Sys2Proof
end

