-- ==== Sys2Proof/Tests/Slice0.lean ====
section
/-! SUPPORT. The model's own tests. Every expected value is taken from the tables of 30_encoding.md or from a vector of
95_test_vectors.md, named in the comment. The second half holds, for every statement with hypotheses, a concrete state and
operands that meet them, clause by clause and at the bounds of their ranges. -/

namespace Sys2Proof.Machine.Tests

/-! ## Helpers -/

/-- The outcome is a next state. -/
def isNext : Result → Bool
  | .next _ => true
  | .fault _ => false
  | .refused _ => false

/-- The next state, or the reset state where there is none. -/
def stateOf : Result → State
  | .next s => s
  | .fault _ => State.reset
  | .refused _ => State.reset

/-- The outcome is this refusal. -/
def refuses (x : Refusal) : Result → Bool
  | .next _ => false
  | .fault _ => false
  | .refused r => r == x

theorem next_stateOf {r : Result} (h : isNext r = true) : r = .next (stateOf r) := by
  cases r with
  | next s => rfl
  | fault f => exact nomatch f
  | refused f => cases h

/-- A busy engine at a position, under a configuration. -/
def at_ (c : Cfg) (p : Phase) (k : Step) : State := { State.afterReset c with busy := true, phase := p, step := k }

/-- The same, with the Bus Line's answers to come. -/
def atBus (c : Cfg) (p : Phase) (k : Step) (b : List Reply) : State := { at_ c p k with bus := b }

/-- The machine after reset, before one host event. -/
def before (e : HostEvent) : State := { State.reset with host := [e] }

/-- What a host read returns in a state. -/
def reads (s : State) (r : HostReg) : HostWord := readReg s r

/-! ## Well-formedness and decoding -/

/-- R77: a word with bit 0 clear is no START; the check refuses it, and the decoder too. -/
theorem test_wellFormed_refuses_start_with_bit_0_clear :
    (Instr.start 0xFFFFFFFE).wellFormed = false ∧ (Instr.start 0xFFFFFFFF).wellFormed = true ∧
      decodeTableWord 32 0xFFFFFFFE = none := by decide

/-- V-E1 to V-E3, the whole 36-bit words of R73. -/
theorem test_decode_line_commands :
    decode (.cw 0b000100000000000000000000000000000000#36) = .ok .driveLow ∧
    decode (.cw 0b001000000000000000000000000000000000#36) = .ok .release ∧
    decode (.cw 0b001100000000000000000000000000000000#36) = .ok .sample := by decide

/-- V-E4, V-E9 to V-E12. -/
theorem test_decode_delays :
    decode (.cw 0x400000000#36) = .ok (.delayUs 0) ∧ decode (.cw 0x400000064#36) = .ok (.delayUs 100) ∧
    decode (.cw 0x4FFFFFFFF#36) = .ok (.delayUs 4294967295) ∧ decode (.cw 0x500000001#36) = .ok (.delayMs 1) ∧
    decode (.cw 0x5000003E8#36) = .ok (.delayMs 1000) := by decide

/-- 95_test_vectors.md 2.1, host command. -/
theorem test_decode_start :
    decode (.host 0x00000001#32) = .ok (.start 1) ∧ decode (.host 0xFFFFFFFF#32) = .ok (.start 0xFFFFFFFF) ∧
    decode (.host 0x00000000#32) = .error .notStart := by decide

/-- R90 with the PHASE codes of R21; the mode bit matters in BIT_READ alone. -/
theorem test_decode_routines :
    decode (.phase 0b00001#5) = .ok .reset ∧ decode (.phase 0b10001#5) = .ok .reset ∧
    decode (.phase 0b00010#5) = .ok .presence ∧ decode (.phase 0b00011#5) = .ok .postReset ∧
    decode (.phase 0b00100#5) = .ok .bitReadL ∧ decode (.phase 0b10100#5) = .ok .bitReadT ∧
    decode (.phase 0b00101#5) = .ok .checksumValidate ∧ decode (.phase 0b10110#5) = .ok .decode := by decide

/-- 95_test_vectors.md 2.1, "words a decoder must reject as reserved"; and the PHASE codes never taken (R21). -/
theorem test_decode_rejects_reserved :
    decodeCommand 0x000000000#36 = .error (.reservedOpcode 0) ∧ decodeCommand 0x600000000#36 = .error (.reservedOpcode 6) ∧
    decodeCommand 0xF00000000#36 = .error (.reservedOpcode 15) ∧ decodeCommand 0x0FFFFFFFF#36 = .error (.reservedOpcode 0) ∧
    decodeCommand 0x100000001#36 = .error (.operandNotZero 1 1) ∧
    decodeCommand 0x2FFFFFFFF#36 = .error (.operandNotZero 2 0xFFFFFFFF) ∧
    decodeCommand 0x300000001#36 = .error (.operandNotZero 3 1) ∧
    decodePhaseKey 0b10000#5 = .error .idlePhase ∧ decodePhaseKey 0b00111#5 = .error (.phaseNeverTaken 7) := by decide

/-- V-E20 to V-E29. -/
theorem test_decode_responses :
    decodeResponse .driveLow 0x000#10 = some .ok ∧ decodeResponse .sample 0x000#10 = some (.level false) ∧
    decodeResponse .sample 0x100#10 = some (.level true) ∧ decodeResponse .release 0x200#10 = some (.fail 0) ∧
    decodeResponse .sample 0x2FF#10 = some (.fail 0xFF) ∧ decodeResponse .sample 0x3AB#10 = some (.fail 0xAB) ∧
    decodeResponse .sample 0x1AB#10 = some (.level true) ∧ decodeResponse .driveLow 0x100#10 = some .ok ∧
    decodeResponse (.delayUs 1) 0x200#10 = none := by decide

/-- The textual form of R86. -/
theorem test_trace_lines :
    traceLine ⟨0x100000000#36, .ok⟩ = some "DRIVE_LOW -> ok" ∧ traceLine ⟨0x40000001E#36, .ok⟩ = some "DELAY_US 30 -> ok" ∧
    traceLine ⟨0x300000000#36, .level true⟩ = some "SAMPLE -> 1" ∧
    traceLine ⟨0x200000000#36, .fail 7⟩ = some "RELEASE -> fail(0x07)" ∧ traceLine ⟨0x600000000#36, .ok⟩ = none := by decide

/-! ## Instructions, at most two tests each -/

/-- V-P1. -/
theorem test_driveLow_ok :
    let t := stateOf (exec .driveLow (atBus refCfg .reset .s0 [.word 0]))
    t.lineDir = .low ∧ t.busy = true ∧ t.phase = .reset := by decide

/-- V-P3. -/
theorem test_driveLow_fail :
    let t := stateOf (exec .driveLow (atBus refCfg .reset .s0 [.word 0x201]))
    reads t .status = 0x00000026 ∧ reads t .fault = 0x00000001 ∧ t.phase = .idle ∧ t.step = .s0 := by decide

/-- V-P2. -/
theorem test_release_ok :
    (stateOf (exec .release { atBus refCfg .reset .s2 [.word 0] with lineDir := .low })).lineDir = .released := by decide

/-- V-P4. -/
theorem test_release_fail :
    let t := stateOf (exec .release { atBus refCfg .reset .s2 [.word 0x207] with lineDir := .low })
    reads t .status = 0x00000026 ∧ t.fault = 0x07 := by decide

/-- V-P5: a failure whose value is 0 is a failure. -/
theorem test_sample_fail :
    let t := stateOf (exec .sample (atBus refCfg .presence .s1 [.word 0x200]))
    reads t .status = 0x00000006 ∧ reads t .fault = 0 := by decide

/-- V-E27: ERR is ignored when FAIL = 0; the level is in the trace (R86). -/
theorem test_sample_level :
    (stateOf (exec .sample (atBus refCfg .presence .s1 [.word 0x1AB]))).trace = [⟨0x300000000#36, .level true⟩] := by decide

/-- V-P6, V-E8. -/
theorem test_delayUs : (stateOf (exec (.delayUs 30) (at_ refCfg .bitRead .s6))).trace = [⟨0x40000001E#36, .ok⟩] := by decide

/-- V-E29. -/
theorem test_delayUs_fail_refused :
    refuses .delayFailed (exec (.delayUs 30) { at_ refCfg .bitRead .s6 with delay := [.word 0x200] }) = true := by decide

/-- V-P8, V-E11. -/
theorem test_delayMs : (stateOf (exec (.delayMs 1) (at_ refCfg .reset .s1))).trace = [⟨0x500000001#36, .ok⟩] := by decide

/-- V-H3. -/
theorem test_start_when_idle :
    let t := stateOf (step (before (.store 0 4 1)))
    t.busy = true ∧ t.phase = .reset ∧ t.step = .s0 ∧ reads t .status = 0x00000001 := by decide

/-- V-H4. -/
theorem test_start_when_busy : stateOf (exec (.start 1) (at_ refCfg .bitRead .s3)) = at_ refCfg .bitRead .s3 := by decide

/-- V-R5. -/
theorem test_reset_fail :
    let t := stateOf (exec .reset (atBus refCfg .reset .s0 [.word 0x202]))
    reads t .status = 0x00000026 ∧ reads t .fault = 0x00000002 ∧ t.trace = [⟨0x100000000#36, .fail 2⟩] := by decide

/-- V-R1, V-R8: after RELEASE, PRESENCE or POST_RESET. -/
theorem test_reset_ends :
    (stateOf (exec .reset (atBus refCfg .reset .s2 [.word 0]))).phase = .presence ∧
    (stateOf (exec .reset (atBus { refCfg with presenceCheck := false } .reset .s2 [.word 0]))).phase = .postReset := by decide

/-- V-R3, V-R4: the eighth sample, low and high. -/
theorem test_presence_last_poll :
    let s := { at_ refCfg .presence .s1 with pollCnt := 7 }
    (stateOf (exec .presence { s with bus := [levelReply false] })).phase = .postReset ∧
    reads (stateOf (exec .presence { s with bus := [levelReply true] })) .status = 0x0000000A := by decide

/-- V-R2: a high sample is counted. -/
theorem test_presence_counts :
    let t := stateOf (exec .presence { at_ refCfg .presence .s1 with pollCnt := 1, bus := [levelReply true] })
    t.pollCnt = 2 ∧ t.step = .s2 ∧ t.busy = true := by decide

/-- V-R1. -/
theorem test_postReset :
    let t := stateOf (exec .postReset (at_ refCfg .postReset .s0))
    t.phase = .bitRead ∧ t.step = .s0 ∧ t.trace = [⟨0x400000064#36, .ok⟩] := by decide

/-- V-L2, V-L3. -/
theorem test_bitReadL_shifts :
    let s := { at_ refCfg .bitRead .s4 with cur := 0x03, bitIdx := 2 }
    (stateOf (exec .bitReadL { s with bus := [levelReply true] })).cur = 0x07 ∧
    (stateOf (exec .bitReadL { s with bus := [levelReply false] })).cur = 0x06 := by decide

/-- V-B4: byte end, the sum wraps. -/
theorem test_bitReadL_byte_end :
    let t := stateOf (exec .bitReadL { at_ refCfg .bitRead .s6 with cur := 0x01, bitIdx := 7, byteIdx := 1, csum := 0xFF })
    t.frame = #v[0, 1, 0, 0, 0] ∧ t.csum = 0x00 ∧ t.byteIdx = 2 ∧ t.bitIdx = 0 ∧ t.cur = 0 ∧ t.phase = .bitRead := by decide

/-- V-T3, V-T4: the count below the threshold, and equal to it. -/
theorem test_bitReadT_threshold :
    let s := { at_ refCfgT .bitRead .s4 with bus := [levelReply true] }
    (stateOf (exec .bitReadT { s with pollCnt := 5 })).cur = 0x01 ∧
    (stateOf (exec .bitReadT { s with pollCnt := 6 })).cur = 0x00 := by decide

/-- V-T6, V-T7: the sixteenth sample, high and low. -/
theorem test_bitReadT_last_poll :
    let s := { at_ refCfgT .bitRead .s4 with pollCnt := 15, cur := 0x05 }
    (stateOf (exec .bitReadT { s with bus := [levelReply true] })).step = .s6 ∧
    reads (stateOf (exec .bitReadT { s with bus := [levelReply false] })) .status = 0x0000000A ∧
    (stateOf (exec .bitReadT { s with bus := [levelReply false] })).pollCnt = 16 ∧
    (stateOf (exec .bitReadT { s with bus := [levelReply false] })).cur = 0x05 := by decide

/-- V-C3, V-C4. -/
theorem test_checksumValidate :
    let s := { at_ refCfg .checksum .s0 with csum := 0xFC, byteIdx := 5 }
    (stateOf (exec .checksumValidate { s with frame := #v[0xFF, 0xFF, 0xFF, 0xFF, 0xFC] })).phase = .decode ∧
    reads (stateOf (exec .checksumValidate { s with frame := #v[0xFF, 0xFF, 0xFF, 0xFF, 0xFF] })) .status = 0x0000000E := by
  decide

/-- V-D2, V-D3. -/
theorem test_decode_instruction :
    let t := stateOf (exec .decode { at_ refCfg .decode .s0 with frame := #v[0x28, 0x00, 0x83, 0x00, 0xAB] })
    reads t .payload = 0x28008300 ∧ reads t .reading = 0x0000FD28 ∧ reads t .status = 0x00000002 ∧
    reads (stateOf (exec .decode { at_ refCfg .decode .s0 with frame := #v[0xFF, 0xFF, 0xFF, 0xFF, 0xFC] })) .reading =
      0x000081FF := by decide

/-- V-D1, V-D4, V-D5. -/
theorem test_decode_positive_and_negative_zero :
    reads (stateOf (exec .decode { at_ refCfg .decode .s0 with frame := #v[0x32, 0x07, 0x1B, 0x09, 0x5D] })) .reading =
      0x00001B32 ∧
    reads (stateOf (exec .decode { at_ refCfg .decode .s0 with frame := #v[0, 0, 0x80, 0, 0x80] })) .reading = 0 := by decide

/-- V-X2: reset in the middle of a slot. -/
theorem test_reset_input_while_busy :
    let s := { at_ refCfg .bitRead .s1 with lineDir := .low, host := [.resetInput], done := false }
    stateOf (step s) = { State.reset with trace := s.trace } := by decide

/-- 20_memory.md R50: registers 2, 3 and 4 by number, V-D1's payload and reading beside a fault value. -/
theorem test_host_register_numbers :
    let s := fun a =>
      { State.reset with host := [.load a 4], payload := 0x32001B00, temp := 0x1B, rh := 0x32, fault := 0x07, done := true }
    (stateOf (step (s 0))).hostData = some 0 ∧ (stateOf (step (s 4))).hostData = some 0x00000002 ∧
    (stateOf (step (s 8))).hostData = some 0x32001B00 ∧ (stateOf (step (s 12))).hostData = some 0x00001B32 ∧
    (stateOf (step (s 16))).hostData = some 0x00000007 := by decide

/-- V-H10, V-H1. -/
theorem test_host_reads :
    refuses .noSuchRegister (step (before (.load 20 4))) = true ∧ refuses .wrongAccessWidth (step (before (.load 4 1))) = true ∧
    (stateOf (step (before (.load 4 4)))).hostData = some 0 := by decide

/-! ## Witnesses: every statement with hypotheses has a state and operands that meet them -/

theorem witness_DecodingAnEncodedInstructionGivesItBack :
    (Instr.start 0x80000001).wellFormed = true ∧ (Instr.delayMs 0xFFFFFFFF).wellFormed = true ∧
      Instr.bitReadT.wellFormed = true := by decide

theorem witness_EncodingADecodedWordGivesItBack :
    decodeCommand 0x4FFFFFFFF#36 = .ok (.delayUs 0xFFFFFFFF) ∧ decodeHostWord 1#32 = .ok (.start 1) ∧
    decodePhaseKey 0b10110#5 = .ok .decode ∧ decodePhaseKey 0b10100#5 = .ok .bitReadT ∧ keyPhase 0b10100#5 = 4 := by decide

theorem witness_ReservedCommandWordsAreRejectedAndNeverIssued :
    (cmdOp 0x0FFFFFFFF#36).toNat = 0 ∧ 6 ≤ (cmdOp 0x600000000#36).toNat ∧ 6 ≤ (cmdOp 0xF00000000#36).toNat ∧
    (1 ≤ (cmdOp 0x100000001#36).toNat ∧ (cmdOp 0x100000001#36).toNat ≤ 3 ∧ cmdOperand 0x100000001#36 ≠ 0) ∧
    (1 ≤ (cmdOp 0x3FFFFFFFF#36).toNat ∧ (cmdOp 0x3FFFFFFFF#36).toNat ≤ 3 ∧ cmdOperand 0x3FFFFFFFF#36 ≠ 0) := by decide

theorem witness_ReservedCommandWordsAreRejectedAndNeverIssued_step :
    ∃ t, step (atBus refCfg .reset .s0 [.word 0]) = .next t ∧ ⟨0x100000000#36, .ok⟩ ∈ t.trace :=
  ⟨_, next_stateOf (by decide), by decide⟩

theorem witness_ResponsesAreReadAndIgnoredFieldsDoNotMatter :
    (0x1FF : RspWord)[9] = false ∧
    ((atBus refCfg .presence .s1 []).busy = true ∧ (atBus refCfg .presence .s1 []).host = [] ∧
      (atBus refCfg .presence .s1 []).command = some .sample ∧ toBusLine .sample = true ∧
      decodeResponse .sample 0x3AB#10 = decodeResponse .sample 0x2AB#10) ∧
    ((at_ refCfg .reset .s1).busy = true ∧ (at_ refCfg .reset .s1).command = some (.delayMs 1) ∧
      toBusLine (.delayMs 1) = false ∧ decodeResponse (.delayMs 1) 0x1FF#10 = decodeResponse (.delayMs 1) 0#10) := by decide

theorem witness_FailResponseToADelayIsRefused :
    let s := { at_ refCfg .reset .s1 with delay := [.word 0x200] }
    s.delayReply = .word 0x200 ∧ (0x200 : RspWord)[9] = true ∧ s.busy = true ∧ s.host = [] ∧
      stepInRange s.cfg.sampleMode s.phase s.step = true ∧ s.command = some (.delayMs 1) ∧
      toBusLine (.delayMs 1) = false := by decide

theorem witness_DriveLowResult_ReleaseResult_SampleResult :
    ((atBus refCfg .reset .s0 [.word 0x1FF]).busReply = .word 0x1FF ∧ (0x1FF : RspWord)[9] = false) ∧
    ((atBus refCfg .reset .s0 [.word 0x200]).busReply = .word 0x200 ∧ (0x200 : RspWord)[9] = true) := by decide

theorem witness_DelaysChangeNoEngineState :
    (at_ refCfg .reset .s1).delayReply = .word 0 ∧ (0 : RspWord)[9] = false ∧
    { at_ refCfg .reset .s1 with delay := [.word 0x1FF, .silent] }.delayReply = .word 0x1FF ∧
    (0x1FF : RspWord)[9] = false := by decide

theorem witness_TakingAnAnswerChangesNothingElse :
    (atBus refCfg .reset .s0 [.silent, .word 3]).bus = .silent :: [.word 3] ∧ State.reset.bus = [] ∧
    { State.reset with delay := [.silent] }.delay = .silent :: [] ∧ State.reset.delay = [] := by decide

theorem witness_AnUnansweredCommandLeavesTheEngineWhereItIs :
    let s := atBus refCfg .bitRead .s4 [.silent]
    let d := { at_ refCfgT .bitRead .s5 with delay := [.silent] }
    (toBusLine .sample = true ∧ replyTo .sample s = .silent ∧ cfgLegal s.cfg = true ∧ s.busy = true ∧ s.host = [] ∧
      stepInRange s.cfg.sampleMode s.phase s.step = true ∧ s.command = some .sample) ∧
    (replyTo (.delayUs 5) d = .silent ∧ cfgLegal d.cfg = true ∧ d.busy = true ∧ d.host = [] ∧
      stepInRange d.cfg.sampleMode d.phase d.step = true ∧ d.command = some (.delayUs 5)) := by decide

/-- The answers `ok` and `fail(0xFF)` to a line command, and the end of a wait, at each step of a routine. -/
theorem witness_ResetRoutineResult :
    ((atBus refCfg .reset .s0 [.word 0]).step = .s0 ∧ LineSays (atBus refCfg .reset .s0 [.word 0]) 0) ∧
    ((at_ refCfg .reset .s1).step = .s1 ∧ WaitEnds (at_ refCfg .reset .s1) 0) ∧
    ((atBus refCfg .reset .s2 [.word 0]).step = .s2 ∧ LineSays (atBus refCfg .reset .s2 [.word 0]) 0) ∧
    LineFails (atBus refCfg .reset .s0 [.word 0x2FF]) 0x2FF ∧ LineFails (atBus refCfg .reset .s2 [.word 0x2FF]) 0x2FF ∧
    ((at_ refCfg .reset .s3).step ≠ .s0 ∧ (at_ refCfg .reset .s3).step ≠ .s1 ∧ (at_ refCfg .reset .s3).step ≠ .s2) := by
  decide

theorem witness_PresenceRoutineResult :
    let c := { refCfg with presencePolls := 0xFFFF }
    let s := fun (n : BitVec 16) (r : RspWord) => { atBus c .presence .s1 [.word r] with pollCnt := n }
    WaitEnds (at_ refCfg .presence .s0) 0 ∧ WaitEnds (at_ refCfg .presence .s2) 0 ∧
    (LineSays (s 0xFFFE 0) 0 ∧ (0 : RspWord)[8] = false ∧ 0 < (s 0xFFFE 0).cfg.presencePolls.toNat) ∧
    (LineSays (s 0xFFFD 0x100) 0x100 ∧ (0x100 : RspWord)[8] = true ∧
      (s 0xFFFD 0x100).pollCnt.toNat + 1 < (s 0xFFFD 0x100).cfg.presencePolls.toNat) ∧
    (LineSays (s 0xFFFE 0x100) 0x100 ∧ (s 0xFFFE 0x100).pollCnt.toNat + 1 = (s 0xFFFE 0x100).cfg.presencePolls.toNat) ∧
    LineFails (s 0 0x200) 0x200 ∧
    ((at_ { refCfg with presencePolls := 0 } .presence .s1).step = .s1 ∧
      (at_ { refCfg with presencePolls := 0 } .presence .s1).cfg.presencePolls = 0) ∧
    ((at_ refCfg .presence .s3).step ≠ .s0 ∧ (at_ refCfg .presence .s3).step ≠ .s1 ∧
      (at_ refCfg .presence .s3).step ≠ .s2) := by decide

theorem witness_PostResetRoutineResult :
    (at_ refCfg .postReset .s0).step = .s0 ∧ WaitEnds (at_ refCfg .postReset .s0) 0 ∧
    (at_ refCfg .postReset .s1).step ≠ .s0 := by decide

theorem witness_SlotOpeningResult :
    LineSays (atBus refCfgT .bitRead .s0 [.word 0]) 0 ∧ WaitEnds (at_ refCfgT .bitRead .s1) 0 ∧
    LineSays (atBus refCfg .bitRead .s2 [.word 0]) 0 ∧ LineFails (atBus refCfg .bitRead .s0 [.word 0x201]) 0x201 ∧
    LineFails (atBus refCfg .bitRead .s2 [.word 0x201]) 0x201 := by decide

theorem witness_LevelSampleResult :
    WaitEnds (at_ refCfg .bitRead .s3) 0 ∧ LineSays (atBus refCfg .bitRead .s4 [.word 0x100]) 0x100 ∧
    LineFails (atBus refCfg .bitRead .s4 [.word 0x300]) 0x300 ∧ (at_ refCfg .bitRead .s5).step = .s5 := by decide

theorem witness_ThresholdSampleResult :
    let c := { refCfgT with bitPollMax := 0xFFFF, bitThreshold := 0xFFFF }
    let s := fun (n : BitVec 16) (r : RspWord) => { atBus c .bitRead .s4 [.word r] with pollCnt := n }
    bitLimitsLegal c = true ∧ WaitEnds (at_ c .bitRead .s3) 0 ∧ WaitEnds (at_ c .bitRead .s5) 0 ∧
    (LineSays (s 0xFFFE 0x100) 0x100 ∧ (0x100 : RspWord)[8] = true) ∧
    (LineSays (s 0xFFFD 0) 0 ∧ (0 : RspWord)[8] = false ∧ (s 0xFFFD 0).pollCnt.toNat + 1 < c.bitPollMax.toNat) ∧
    (LineSays (s 0xFFFE 0) 0 ∧ (s 0xFFFE 0).pollCnt.toNat + 1 = c.bitPollMax.toNat) ∧ LineFails (s 0 0x200) 0x200 ∧
    (let z := fun c => at_ c .bitRead .s4;
      (z refCfgT).step = .s4 ∧ (z { refCfgT with bitPollMax := 0 }).cfg.bitPollMax = 0 ∧
      (z { refCfgT with bitThreshold := 0 }).cfg.bitThreshold = 0 ∧
      (z { refCfgT with bitThreshold := 17 }).cfg.bitPollMax.toNat <
        (z { refCfgT with bitThreshold := 17 }).cfg.bitThreshold.toNat) := by decide

theorem witness_SlotEndAndByteEndResult :
    let s := fun (i j : BitVec 3) => { at_ refCfg .bitRead .s6 with bitIdx := i, byteIdx := j }
    (s 0 0).step = .s6 ∧ WaitEnds (s 0 0) 0 ∧ (s 6 4).bitIdx.toNat < 7 ∧
    ((s 7 3).bitIdx.toNat = 7 ∧ (s 7 3).byteIdx.toNat < 4) ∧ ((s 7 4).bitIdx.toNat = 7 ∧ (s 7 4).byteIdx.toNat = 4) ∧
    ((s 7 5).bitIdx.toNat = 7 ∧ 4 < (s 7 5).byteIdx.toNat ∧ WaitEnds (s 7 5) 0) := by decide

theorem witness_ChecksumValidateResult_DecodeResult :
    let s := { at_ refCfg .checksum .s0 with csum := 0x4D }
    s.step = .s0 ∧ { s with frame := #v[0x32, 0, 0x1B, 0, 0x4D] }.csum = { s with frame := #v[0x32, 0, 0x1B, 0, 0x4D] }.frame[4] ∧
    s.csum ≠ s.frame[4] ∧ (at_ refCfg .decode .s0).step = .s0 ∧ (at_ refCfg .checksum .s1).step ≠ .s0 ∧
    (at_ refCfg .decode .s6).step ≠ .s0 := by decide

theorem witness_TemperatureIsSignTimesMagnitude : (0x80 : Byte)[7] = true ∧ (0x7F : Byte)[7] = false := by decide

theorem witness_StartResult :
    ((1 : HostWord)[0] = true ∧ State.reset.busy = false) ∧ (0xFFFFFFFE : HostWord)[0] = false ∧
    (at_ refCfg .decode .s0).busy = true := by decide

theorem witness_AStepRunsTheDecodedInstruction :
    EngineMoves (at_ refCfg .reset .s0) (at_ refCfg .reset .s0) ∧
    EngineMoves { at_ refCfgT .bitRead .s5 with host := [.run, .load 0 4] } { at_ refCfgT .bitRead .s5 with host := [.load 0 4] } ∧
    ((at_ refCfg .reset .s0).busy = true ∧ (at_ refCfg .reset .s0).phase ≠ .idle ∧
      decode (.phase (sequencerKey (at_ refCfg .reset .s0))) = .ok .reset) ∧
    decode (.phase (sequencerKey (at_ refCfgT .bitRead .s5))) = .ok .bitReadT ∧
    ((before (.store 0 4 1)).host = .store (before (.store 0 4 1)).cfg.oweBase 4 1 :: [] ∧ (1 : HostWord)[0] = true) :=
  ⟨.inl ⟨rfl, rfl⟩, .inr ⟨_, rfl, rfl⟩, by decide, by decide, by decide⟩

theorem witness_AStepIssuesExactlyTheCommandOfItsPosition :
    (EngineMoves (at_ refCfg .decode .s0) (at_ refCfg .decode .s0) ∧ (at_ refCfg .decode .s0).command = none ∧
      ∃ t, step (at_ refCfg .decode .s0) = .next t) ∧
    (let s := atBus refCfg .reset .s0 [.silent];
      EngineMoves s s ∧ s.command = some .driveLow ∧ replyTo .driveLow s = .silent ∧ ∃ t, step s = .next t) ∧
    (let s := at_ refCfg .reset .s1;
      EngineMoves s s ∧ s.command = some (.delayMs 1) ∧ replyTo (.delayMs 1) s = .word 0 ∧ ∃ t, step s = .next t) :=
  ⟨⟨.inl ⟨rfl, rfl⟩, by decide, _, next_stateOf (by decide)⟩,
    ⟨.inl ⟨rfl, rfl⟩, by decide, by decide, _, next_stateOf (by decide)⟩,
    ⟨.inl ⟨rfl, rfl⟩, by decide, by decide, _, next_stateOf (by decide)⟩⟩

theorem witness_NoCommandIsIssuedWhileIdle :
    (before (.store 0 4 1)).busy = false ∧ (∃ t, step (before (.store 0 4 1)) = .next t) ∧
    (∃ t, step (before .resetInput) = .next t) ∧ (∃ t, step State.reset = .next t) :=
  ⟨by decide, ⟨_, next_stateOf (by decide)⟩, ⟨_, next_stateOf (by decide)⟩, ⟨_, next_stateOf (by decide)⟩⟩

theorem witness_IdleUntilStartThenDriveLow :
    EngineMoves State.reset State.reset ∧ EngineMoves (before .run) State.reset ∧ State.reset.busy = false ∧
    ((before (.store 0 4 3)).host = [.store (before (.store 0 4 3)).cfg.oweBase 4 3] ∧ (3 : HostWord)[0] = true) :=
  ⟨.inl ⟨rfl, rfl⟩, .inr ⟨_, rfl, rfl⟩, by decide, by decide⟩

theorem witness_APlacedInstructionIsTheNextOneRun :
    decodePhaseKey 0b10100#5 = .ok .bitReadT ∧ (1 : HostWord)[0] = true ∧ decodeCommand 0x5FFFFFFFF#36 = .ok (.delayMs 0xFFFFFFFF) ∧
    replyTo (.delayMs 0xFFFFFFFF) State.reset ≠ .silent ∧
    ∃ t, step (State.reset.withFetchWord 40 (0x5FFFFFFFF#36).toNat) = .next t :=
  ⟨by decide, by decide, by decide, by decide, _, next_stateOf (by decide)⟩

theorem witness_StatusRegister :
    (before (.load 4 4)).host = .load ((before (.load 4 4)).cfg.oweBase + 4) 4 :: [] ∧
    (before (.store 4 4 0xFFFFFFFF)).host = .store ((before (.store 4 4 0xFFFFFFFF)).cfg.oweBase + 4) 4 0xFFFFFFFF :: [] := by
  decide

theorem witness_HostReadsAndIgnoredWrites :
    (regOfNumber 0 = .ok .ctrl ∧ (before (.load 0 4)).host = .load (0 + 4 * 0) 4 :: []) ∧
    (regOfNumber 4 = .ok .fault ∧ (before (.load 16 4)).host = .load (0 + 4 * 4) 4 :: []) ∧
    ((0xFFFFFFFE : HostWord)[0] = false ∧ (before (.store 0 4 0xFFFFFFFE)).host = .store (0 + 4 * 0) 4 0xFFFFFFFE :: []) ∧
    ((4 : Fin 5) ≠ 0 ∧ (before (.store 16 4 1)).host = .store (0 + 4 * 4) 4 1 :: []) := by decide

/-- One read for each register, from a state in which the five read differently. -/
theorem witness_HostReadsAndIgnoredWrites_numbers :
    let s := fun a =>
      { State.afterReset { refCfg with oweBase := 0x1000 } with
        host := [.load a 4], payload := 0x32001B00, temp := 0x1B, rh := 0x32, fault := 7, done := true }
    ((s 0x1000).host = .load (s 0x1000).cfg.oweBase 4 :: []) ∧
    ((s 0x1004).host = .load ((s 0x1004).cfg.oweBase + 4) 4 :: [] ∧ (2 : HostWord) =
      (0 : BitVec 26) ++ (s 0).lineDir.code ++ (s 0).kind.code ++ BitVec.ofBool (s 0).done ++ BitVec.ofBool (s 0).busy) ∧
    ((s 0x1008).host = .load ((s 0x1008).cfg.oweBase + 8) 4 :: [] ∧ (0x32001B00 : HostWord) = (s 0).payload) ∧
    ((s 0x100C).host = .load ((s 0x100C).cfg.oweBase + 12) 4 :: [] ∧
      (0x00001B32 : HostWord) = (0 : BitVec 16) ++ (s 0).temp ++ (s 0).rh) ∧
    ((s 0x1010).host = .load ((s 0x1010).cfg.oweBase + 16) 4 :: [] ∧
      (7 : HostWord) = (0 : BitVec 24) ++ (s 0).fault) := by decide

/-- One access for each clause, at the first value outside the legal ones. -/
theorem witness_HostAccessesWithoutMeaningAreRefused :
    let s := fun (e : HostEvent) => { State.afterReset { refCfg with oweBase := 4 } with host := [e] }
    ((s (.load 4 2)).host = .load 4 2 :: [] ∧ (2 : Nat) ≠ 4) ∧
    ((s (.store 23 4 1)).host = .store 23 4 1 :: [] ∧ (s (.store 23 4 1)).cfg.oweBase ≤ 23 ∧ (23 - 4) % 4 ≠ 0) ∧
    ((s (.load 24 4)).host = .load 24 4 :: [] ∧ 24 = (s (.load 24 4)).cfg.oweBase + 4 * 5) := by decide

theorem witness_TheHostCannotDisturbATransaction :
    let s := fun (e : HostEvent) => { at_ refCfg .bitRead .s1 with host := [e] }
    (s (.store 0 4 1)).busy = true ∧ HostEvent.store 0 4 1 ≠ .run ∧ HostEvent.store 0 4 1 ≠ .resetInput ∧
    (∃ t, step (s (.store 0 4 1)) = .next t) ∧ (∃ t, step (s (.load 16 4)) = .next t) :=
  ⟨by decide, by decide, by decide, ⟨_, next_stateOf (by decide)⟩, ⟨_, next_stateOf (by decide)⟩⟩

theorem witness_ForeignUseOfTheLine :
    ((before .foreignUse).host = .foreignUse :: [] ∧ (before .foreignUse).busy = false) ∧
    { at_ refCfg .reset .s0 with host := [.foreignUse] }.busy = true := by decide

theorem witness_ResetState :
    (∃ t, { at_ refCfgT .bitRead .s4 with host := [.resetInput] }.host = .resetInput :: [] ∧
      step { at_ refCfgT .bitRead .s4 with host := [.resetInput] } = .next t) ∧
    State.reset = State.afterReset refCfg :=
  ⟨⟨_, by decide, next_stateOf (by decide)⟩, rfl⟩

theorem witness_ResetInputCompletes :
    let s := { atBus refCfg .bitRead .s4 [.silent] with host := [.resetInput] }
    let d := { at_ refCfg .bitRead .s6 with delay := [.silent], host := [.resetInput] }
    (s.host = .resetInput :: [] ∧ s.busy = true ∧ s.command = some .sample ∧ replyTo .sample s = .silent ∧
      toBusLine .sample = true) ∧
    (d.busy = true ∧ d.command = some (.delayUs 30) ∧ replyTo (.delayUs 30) d = .silent ∧ toBusLine (.delayUs 30) = false) ∧
    (before .resetInput).busy = false := by decide

theorem witness_ConfigurationIsConstant : ∃ t, step (at_ refCfg .reset .s1) = .next t := ⟨_, next_stateOf (by decide)⟩

theorem witness_InvariantHoldsAfterReset :
    cfgLegal { refCfgT with presencePolls := 0xFFFF, bitPollMax := 1, bitThreshold := 1 } = true := by decide

/-! States that meet the invariant in the middle of a transaction. -/

/-- PRESENCE, the last allowed sample is next. -/
def atLastPoll : State := { at_ refCfg .presence .s1 with pollCnt := 7, bus := [levelReply true] }

/-- The last recovery delay of a frame. -/
def atLastSlotEnd : State :=
  { at_ refCfg .bitRead .s6 with
    byteIdx := 4, bitIdx := 7, cur := 0x4D, csum := 0x4D, frame := #v[0x32, 0, 0x1B, 0, 0] }

/-- A THRESHOLD slot, the last allowed sample is next. -/
def atLastThresholdPoll : State := { at_ refCfgT .bitRead .s4 with pollCnt := 15, bus := [levelReply false] }

/-- DECODE of a valid frame. -/
def atDecode : State :=
  { at_ refCfg .decode .s0 with byteIdx := 5, csum := 0x4D, frame := #v[0x32, 0, 0x1B, 0, 0x4D] }

/-- CHECKSUM_VALIDATE of a frame that is not valid. -/
def atBadSum : State :=
  { at_ refCfg .checksum .s0 with byteIdx := 5, csum := 0x4D, frame := #v[0x32, 0, 0x1B, 0, 0x4C] }

theorem witness_inv_atLastPoll : StateInv atLastPoll :=
  ⟨by decide, ⟨by decide, by decide, by decide, by decide, ⟨by decide, by decide⟩⟩, (by decide : LineDir.released = .released),
    (by decide : (7 : BitVec 16).toNat < (8 : BitVec 16).toNat), ⟨by decide, by decide, by decide⟩,
    ⟨by decide, by decide, by decide, by decide⟩, Nat.zero_le _⟩

theorem witness_inv_atLastSlotEnd : StateInv atLastSlotEnd :=
  ⟨by decide, ⟨by decide, by decide, by decide, by decide, (by decide : (4 : BitVec 3).toNat < 5)⟩,
    (by decide : LineDir.released = .released), trivial, ⟨by decide, by decide, by decide⟩,
    ⟨by decide, by decide, by decide, by decide⟩, Nat.zero_le _⟩

theorem witness_inv_atLastThresholdPoll : StateInv atLastThresholdPoll :=
  ⟨by decide, ⟨by decide, by decide, by decide, by decide, (by decide : (0 : BitVec 3).toNat < 5)⟩,
    (by decide : LineDir.released = .released), fun _ => (by decide : (15 : BitVec 16).toNat < (16 : BitVec 16).toNat),
    ⟨by decide, by decide, by decide⟩, ⟨by decide, by decide, by decide, by decide⟩, Nat.zero_le _⟩

theorem witness_inv_atDecode : StateInv atDecode :=
  ⟨by decide, ⟨by decide, by decide, by decide, by decide, ⟨by decide, by decide⟩⟩, (by decide : LineDir.released = .released),
    trivial, ⟨by decide, by decide, by decide⟩, ⟨by decide, by decide, by decide, by decide⟩, Nat.zero_le _⟩

theorem witness_inv_atBadSum : StateInv atBadSum :=
  ⟨by decide, ⟨by decide, by decide, by decide, by decide, ⟨by decide, by decide⟩⟩, (by decide : LineDir.released = .released),
    trivial, ⟨by decide, by decide, by decide⟩, ⟨by decide, by decide, by decide, by decide⟩, Nat.zero_le _⟩

theorem witness_EveryStepKeepsTheInvariant : StateInv atLastSlotEnd ∧ ∃ t, step atLastSlotEnd = .next t :=
  ⟨witness_inv_atLastSlotEnd, _, next_stateOf (by decide)⟩

theorem witness_CountersStayInRange :
    (StateInv atLastPoll ∧ atLastPoll.phase = .presence ∧ atLastPoll.step ≠ .s0 ∧
      ∃ t, step atLastPoll = .next t ∧ t.done = true ∧ t.pollCnt ≠ atLastPoll.pollCnt) ∧
    (StateInv atLastThresholdPoll ∧ atLastThresholdPoll.phase = .bitRead ∧ atLastThresholdPoll.step ≠ .s3 ∧
      ∃ t, step atLastThresholdPoll = .next t ∧ t.done = true ∧ t.pollCnt ≠ atLastThresholdPoll.pollCnt) :=
  ⟨⟨witness_inv_atLastPoll, by decide, by decide, _, next_stateOf (by decide), by decide⟩,
    ⟨witness_inv_atLastThresholdPoll, by decide, by decide, _, next_stateOf (by decide), by decide⟩⟩

theorem witness_ChecksumIsTheSumOfTheDataBytes :
    StateInv atLastSlotEnd ∧ ∃ t, step atLastSlotEnd = .next t ∧ t.phase = .checksum :=
  ⟨witness_inv_atLastSlotEnd, _, next_stateOf (by decide), by decide⟩

theorem witness_SuccessIsReportedOnlyForAValidFrame :
    StateInv atDecode ∧ atDecode.done = false ∧ ∃ t, step atDecode = .next t ∧ t.done = true ∧ t.kind = .ok :=
  ⟨witness_inv_atDecode, by decide, _, next_stateOf (by decide), by decide⟩

/-- Every kind of completion. -/
theorem witness_ErrorKindsByRoutine :
    (StateInv atDecode ∧ atDecode.busy = true ∧ ∃ t, step atDecode = .next t ∧ t.done = true ∧ t.kind = .ok) ∧
    (StateInv atBadSum ∧ ∃ t, step atBadSum = .next t ∧ t.done = true ∧ t.kind = .checksumMismatch) ∧
    (StateInv atLastThresholdPoll ∧ ∃ t, step atLastThresholdPoll = .next t ∧ t.done = true ∧ t.kind = .timeout) ∧
    (StateInv atLastPoll ∧ ∃ t, step atLastPoll = .next t ∧ t.done = true ∧ t.kind = .timeout) :=
  ⟨⟨witness_inv_atDecode, by decide, _, next_stateOf (by decide), by decide⟩,
    ⟨witness_inv_atBadSum, _, next_stateOf (by decide), by decide⟩,
    ⟨witness_inv_atLastThresholdPoll, _, next_stateOf (by decide), by decide⟩,
    ⟨witness_inv_atLastPoll, _, next_stateOf (by decide), by decide⟩⟩

/-- PRESENCE, where the next SAMPLE fails: the one kind of completion the states above do not end in. -/
def atFailingSample : State := { atLastPoll with bus := [.word 0x204] }

theorem witness_ErrorKindsByRoutine_busFault :
    StateInv atFailingSample ∧ ∃ t, step atFailingSample = .next t ∧ t.done = true ∧ t.kind = .busFault :=
  ⟨⟨by decide, ⟨by decide, by decide, by decide, by decide, ⟨by decide, by decide⟩⟩, (by decide : LineDir.released = .released),
    (by decide : (7 : BitVec 16).toNat < (8 : BitVec 16).toNat), ⟨by decide, by decide, by decide⟩,
    ⟨by decide, by decide, by decide, by decide⟩, Nat.zero_le _⟩, _, next_stateOf (by decide), by decide⟩

theorem witness_EveryTransactionCompletes :
    StateInv atBadSum ∧ atBadSum.busy = true ∧ atBadSum.host = [] ∧ busAnswers atBadSum ∧ delaysAnswered atBadSum :=
  ⟨witness_inv_atBadSum, by decide, by decide, fun _ h => (by cases h), fun _ h => (by cases h)⟩

/-! Reachable states. -/

/-- The first steps of a transaction whose line commands are answered `ok` and whose samples are high. -/
def begun (c : Cfg) (n : Nat) : State :=
  stateOf (Sys2Proof.core.run n (initial c [.word 0, .word 0, levelReply true] [] [.store c.oweBase 4 1]))

/-- A transaction whose DRIVE_LOW fails. -/
def failed (c : Cfg) : State := stateOf (Sys2Proof.core.run 2 (initial c [.word 0x207] [] [.store c.oweBase 4 1]))

theorem witness_begun_reachable :
    Reachable (begun refCfg 1) ∧ Reachable (begun refCfg 2) ∧ Reachable (begun refCfg 3) ∧ Reachable (begun refCfg 5) ∧
    Reachable (begun refCfgT 3) :=
  ⟨⟨_, _, _, _, 1, by decide, next_stateOf (by decide)⟩, ⟨_, _, _, _, 2, by decide, next_stateOf (by decide)⟩,
    ⟨_, _, _, _, 3, by decide, next_stateOf (by decide)⟩, ⟨_, _, _, _, 5, by decide, next_stateOf (by decide)⟩,
    ⟨_, _, _, _, 3, by decide, next_stateOf (by decide)⟩⟩

theorem witness_failed_reachable :
    Reachable (failed refCfg) ∧ Reachable (failed { refCfg with presenceCheck := false }) :=
  ⟨⟨_, _, _, _, 2, by decide, next_stateOf (by decide)⟩, ⟨_, _, _, _, 2, by decide, next_stateOf (by decide)⟩⟩

theorem witness_TheLineIsNeverLowWhileIdle :
    (Reachable (failed refCfg) ∧ (failed refCfg).busy = false ∧ (failed refCfg).lineDir = .unknown) ∧
    (Reachable (initial refCfg [] [] []) ∧ (initial refCfg [] [] []).busy = false ∧
      (initial refCfg [] [] []).kind ≠ .busFault) :=
  ⟨⟨witness_failed_reachable.1, by decide, by decide⟩, ⟨⟨_, _, _, _, 0, by decide, rfl⟩, by decide, by decide⟩⟩

theorem witness_LineCommandsFitTheLine :
    (Reachable (begun refCfg 1) ∧ (begun refCfg 1).busy = true ∧ (begun refCfg 1).command = some .driveLow ∧
      ∃ t, step (begun refCfg 1) = .next t ∧ t.lineDir = .low) ∧
    (Reachable (begun refCfg 2) ∧ (begun refCfg 2).lineDir = .low) ∧
    (Reachable (begun refCfg 3) ∧ (begun refCfg 3).command = some .release) ∧
    (Reachable (begun refCfg 5) ∧ (begun refCfg 5).command = some .sample) :=
  ⟨⟨witness_begun_reachable.1, by decide, by decide, _, next_stateOf (by decide), by decide⟩,
    ⟨witness_begun_reachable.2.1, by decide⟩, ⟨witness_begun_reachable.2.2.1, by decide⟩, ⟨witness_begun_reachable.2.2.2.1, by decide⟩⟩

theorem witness_ResultRegistersAreConsistent :
    (Reachable (begun refCfg 2) ∧ (begun refCfg 2).busy = true ∧ (begun refCfg 2).done = false) ∧
    (Reachable (failed refCfg) ∧ (failed refCfg).done = true ∧ (failed refCfg).kind = .busFault) :=
  ⟨⟨witness_begun_reachable.2.1, by decide⟩, ⟨witness_failed_reachable.1, by decide⟩⟩

theorem witness_AFailedTransactionYieldsNothing :
    Reachable (failed refCfg) ∧ (failed refCfg).done = true ∧ (failed refCfg).kind ≠ .ok :=
  ⟨witness_failed_reachable.1, by decide, by decide⟩

theorem witness_LevelModeSlotsNeverTimeOut :
    (let s := atBus refCfg .bitRead .s4 [levelReply true];
      s.cfg.sampleMode = .level ∧ s.busy = true ∧ s.done = false ∧ s.phase = .bitRead ∧ ∃ t, step s = .next t) ∧
    (let s := failed { refCfg with presenceCheck := false };
      Reachable s ∧ s.cfg.sampleMode = .level ∧ s.cfg.presenceCheck = false ∧ s.done = true) :=
  ⟨⟨by decide, by decide, by decide, by decide, _, next_stateOf (by decide)⟩, witness_failed_reachable.2, by decide⟩

/-- A reachable state before each kind of host event, and before none. -/
theorem witness_NothingIsRefusedInALegalRun :
    ∀ host ∈ ([[], [.run], [.resetInput], [.foreignUse], [.load 16 4], [.store 0 4 1]] : List (List HostEvent)),
      Reachable (initial refCfg [] [] host) ∧ delaysAnswered (initial refCfg [] [] host) :=
  fun _ _ => ⟨⟨_, _, _, _, 0, by decide, rfl⟩, fun _ h => (by cases h)⟩

theorem witness_TransactionsAreBoundedInLength :
    (Reachable (begun refCfg 5) ∧ (begun refCfg 5).cfg.sampleMode = .level) ∧
    (Reachable (begun refCfgT 3) ∧ (begun refCfgT 3).cfg.sampleMode = .threshold) :=
  ⟨⟨witness_begun_reachable.2.2.2.1, by decide⟩, ⟨witness_begun_reachable.2.2.2.2, by decide⟩⟩

/-- Two idle states with a different past. -/
theorem witness_TransactionsDoNotDependOnHistory :
    let s := { State.reset with bus := [.word 0] }
    let t := { failed refCfg with bus := [.word 0], frame := #v[1, 2, 3, 4, 5] }
    s.busy = false ∧ t.busy = false ∧ s.cfg = t.cfg ∧ s.bus = t.bus ∧ s.delay = t.delay ∧ s.freeCount = t.freeCount ∧
    s.host = [] ∧ t.host = [] ∧ s.lineDir ≠ t.lineDir ∧ (∃ s', Sys2Proof.core.run 1 s.begin = .next s') ∧
    (∃ t', Sys2Proof.core.run 1 t.begin = .next t') :=
  ⟨by decide, by decide, by decide, by decide, by decide, by decide, by decide, by decide, by decide,
    ⟨_, next_stateOf (by decide)⟩, ⟨_, next_stateOf (by decide)⟩⟩

/-! Composite routines. -/

theorem witness_ALevelSlotReadsOneBit :
    let s := { atBus refCfg .bitRead .s0 (slotReplies true ++ [.silent]) with bitIdx := 6, delay := [.word 0x1FF] }
    s.busy = true ∧ s.phase = .bitRead ∧ s.step = .s0 ∧ s.cfg.sampleMode = .level ∧ s.host = [] ∧ delaysAnswered s ∧
    s.bus = slotReplies true ++ [.silent] ∧ s.bitIdx.toNat < 7 :=
  ⟨by decide, by decide, by decide, by decide, by decide,
    fun a h => ⟨0x1FF, by simpa [atBus] using h, by decide⟩, by decide, by decide⟩

theorem witness_EightLevelSlotsReadOneByte :
    let s := fun (j : BitVec 3) => { atBus refCfg .bitRead .s0 (byteReplies 0x80 ++ []) with byteIdx := j }
    (s 4).busy = true ∧ (s 4).phase = .bitRead ∧ (s 4).step = .s0 ∧ (s 4).cfg.sampleMode = .level ∧ (s 4).host = [] ∧
    delaysAnswered (s 4) ∧ (s 4).bus = byteReplies 0x80 ++ [] ∧ (s 4).bitIdx = 0 ∧ (s 4).cur = 0 ∧ (s 4).byteIdx.toNat < 5 ∧
    (s 3).byteIdx.toNat < 4 :=
  ⟨by decide, by decide, by decide, by decide, by decide, fun _ h => (by cases h), by decide, by decide, by decide, by decide,
    by decide⟩

/-- `k` at 0 and 15, the last that is no Timeout, and at 16. -/
theorem witness_AThresholdSlotCountsLowSamples :
    let b := fun k => ([.word 0, .word 0] ++ List.replicate k (levelReply false) ++ [levelReply true] ++ [] : List Reply)
    let s := fun (b : List Reply) => { atBus refCfgT .bitRead .s0 b with bitIdx := 6 }
    ((s (b 0)).busy = true ∧ (s (b 0)).phase = .bitRead ∧ (s (b 0)).step = .s0 ∧ (s (b 0)).cfg.sampleMode = .threshold ∧
      (s (b 0)).host = [] ∧ (s (b 0)).delay = [] ∧ bitLimitsLegal (s (b 0)).cfg = true ∧ (s (b 0)).bitIdx.toNat < 7 ∧
      0 < (s (b 0)).cfg.bitPollMax.toNat ∧ (s (b 0)).bus = b 0) ∧
    (15 < (s (b 15)).cfg.bitPollMax.toNat ∧ (s (b 15)).bus = b 15) ∧
    (let b' := ([.word 0, .word 0] ++ List.replicate 16 (levelReply false) ++ [] : List Reply);
      16 = (s b').cfg.bitPollMax.toNat ∧ (s b').bus = b') := by decide

/-- `k` at 0 and 7, the last that is no Timeout, and at 8. -/
theorem witness_PresencePollsAreCounted :
    let b := fun k => (List.replicate k (levelReply true) ++ [levelReply false] ++ [] : List Reply)
    let s := fun (b : List Reply) => atBus refCfg .presence .s0 b
    ((s (b 0)).busy = true ∧ (s (b 0)).phase = .presence ∧ (s (b 0)).step = .s0 ∧ (s (b 0)).host = [] ∧ (s (b 0)).delay = [] ∧
      0 < (s (b 0)).cfg.presencePolls.toNat ∧ (s (b 0)).bus = b 0) ∧
    (7 < (s (b 7)).cfg.presencePolls.toNat ∧ (s (b 7)).bus = b 7) ∧
    (let b' := (List.replicate 8 (levelReply true) ++ [] : List Reply);
      8 = (s b').cfg.presencePolls.toNat ∧ 0 < 8 ∧ (s b').bus = b') := by decide

/-- A frame whose checksum is right and one whose checksum is not, with presence at the last allowed sample. -/
theorem witness_AWholeLevelTransactionReportsItsFrame_NominalDurationOfALevelTransaction :
    let s := fun (f : Vector Byte 5) =>
      { before (.store 0 4 1) with bus := beforeFrameReplies refCfg 7 ++ frameReplies f ++ [.silent] }
    let f : Vector Byte 5 := #v[0x32, 0, 0x1B, 0, 0x4D]
    let g : Vector Byte 5 := #v[0x33, 0, 0x1B, 0, 0x4D]
    ((s f).busy = false ∧ (s f).cfg.sampleMode = .level ∧ (1 : HostWord)[0] = true ∧
      (s f).host = [.store (s f).cfg.oweBase 4 1] ∧ delaysAnswered (s f) ∧ 7 < (s f).cfg.presencePolls.toNat ∧
      (s f).bus = beforeFrameReplies (s f).cfg 7 ++ frameReplies f ++ [.silent]) ∧
    f[4] = f[0] + f[1] + f[2] + f[3] ∧ g[4] ≠ g[0] + g[1] + g[2] + g[3] :=
  ⟨⟨by decide, by decide, by decide, by decide, fun _ h => (by cases h), by decide, rfl⟩, by decide, by decide⟩

end Sys2Proof.Machine.Tests
end

section
/-! Proofs of the family of 00_scope.md: `cfg` is constant (R6). -/

namespace Sys2Proof.Machine

variable {s t : State}

/-- Every row of the transition table is built from named updates of State, each of which keeps `cfg`. -/
theorem turn_cfg (h : Turn s t) : t.cfg = s.cfg := by
  cases h <;> simp

/-- Settles O38: the host's schedule moves on without touching `cfg`, and neither a row of the engine's table, START, a
host read, an ignored access nor the reset input writes it. -/
theorem configurationIsConstant : Obligations.ConfigurationIsConstant := by
  intro s t h
  obtain ⟨u, hu, ht⟩ := step_cases h
  have hcfg : u.cfg = s.cfg := by
    obtain rfl | ⟨e, rest, -, rfl⟩ := hu <;> rfl
  rw [← hcfg]
  obtain hturn | ⟨-, rfl⟩ | ⟨r, rfl⟩ | rfl | rfl := ht
  · exact turn_cfg (turn_of_engineTurn hturn)
  · exact State.begin_cfg u
  · rfl
  · rfl
  · exact State.hardReset_cfg u

end Sys2Proof.Machine
end

section
/-! Proofs of the family of 10_state.md: one step by the event it consumes, STATUS and the reset state (R21, R33, R39). -/

namespace Sys2Proof.Machine

variable {s u : State}

/-- A whole-register access at `OWE_BASE + 4*k` reaches register `k` (20_memory.md R50). -/
theorem regOfAccess_register (base k : Nat) : regOfAccess base (base + 4 * k) 4 = regOfNumber k := by
  simp [regOfAccess]

/-- A step that consumes a host event does what the event says. -/
theorem step_of_host {e : HostEvent} {rest : List HostEvent} (h : s.host = e :: rest) :
    step s = runFetched (hostFetch e { s with host := rest }) := by
  simp [step_eq, fetch, h]

/-- A read returns the register and leaves the block as it is. -/
theorem step_of_load {k : Nat} {r : HostReg} {rest : List HostEvent} (hr : regOfNumber k = .ok r)
    (h : s.host = .load (s.cfg.oweBase + 4 * k) 4 :: rest) :
    step s = .next { s with host := rest, hostData := some (readReg s r) } := by
  rw [step_of_host h]
  simp only [hostFetch, hostLoad, runFetched, regOfAccess_register, hr]
  cases r <;> rfl

/-- A CTRL write with bit 0 set runs START. -/
theorem step_of_store_ctrl {v : HostWord} {rest : List HostEvent} (hv : v[0] = true)
    (h : s.host = .store s.cfg.oweBase 4 v :: rest) : step s = exec (.start v) { s with host := rest } := by
  have hr : regOfAccess s.cfg.oweBase s.cfg.oweBase 4 = .ok .ctrl := regOfAccess_register s.cfg.oweBase 0
  rw [step_of_host h]
  simp [hostFetch, hostStore, hr, hv, runFetched, decode, decodeHostWord]

/-- A write to a register other than CTRL is ignored. -/
theorem step_of_store_ignored {k : Nat} {r : HostReg} {v : HostWord} {rest : List HostEvent}
    (hr : regOfNumber k = .ok r) (hc : r ≠ .ctrl) (h : s.host = .store (s.cfg.oweBase + 4 * k) 4 v :: rest) :
    step s = .next { s with host := rest } := by
  rw [step_of_host h]
  simp only [hostFetch, hostStore, regOfAccess_register, hr]
  cases r with
  | ctrl => exact absurd rfl hc
  | _ => rfl

theorem step_of_resetInput {rest : List HostEvent} (h : s.host = .resetInput :: rest) :
    step s = .next { s with host := rest }.hardReset := by
  rw [step_of_host h]
  rfl

theorem step_of_engineMoves (h : EngineMoves s u) : step s = engineTurn u := by
  obtain ⟨hs, rfl⟩ | ⟨rest, hs, rfl⟩ := h
  · exact step_of_no_host hs
  · exact step_of_run hs

/-- While BUSY = 1 the engine's turn executes what the key of its position decodes to. -/
theorem engineTurn_eq_exec {i : Instr} (hb : s.busy = true) (hp : s.phase ≠ .idle)
    (hd : decode (.phase (sequencerKey s)) = .ok i) : engineTurn s = exec i s := by
  rw [← runFetched_engine]
  simp [engineFetch, hb, hp, runFetched, hd]

/-- The same of a step, past the host's turn: the host's schedule is no part of BUSY, of PHASE or of the key. -/
theorem step_eq_exec {i : Instr} (h : EngineMoves s u) (hb : s.busy = true) (hp : s.phase ≠ .idle)
    (hd : decode (.phase (sequencerKey s)) = .ok i) : step s = exec i u := by
  rw [step_of_engineMoves h]
  obtain ⟨-, rfl⟩ | ⟨rest, -, rfl⟩ := h
  · exact engineTurn_eq_exec hb hp hd
  · exact engineTurn_eq_exec (s := { s with host := rest }) hb hp hd

/-- Settles O26: a step past a `run` event or none is the engine's turn, which executes what its key decodes to; the key's
decoding by phase is `sequencerKey_decodes`. -/
theorem aStepRunsTheDecodedInstruction : Obligations.AStepRunsTheDecodedInstruction := by
  refine ⟨fun s u i => step_eq_exec, fun s u h hb => ?_, fun s v rest h hv => step_of_store_ctrl hv h⟩
  refine ⟨fun hp => ?_, fun hp => ?_, fun hp => ?_, fun hp hm => ?_, fun hp hm => ?_, fun hp => ?_, fun hp => ?_⟩
  all_goals
    have hne : s.phase ≠ .idle := by simp [hp]
    refine step_eq_exec h hb hne ?_
    rw [sequencerKey_decodes hne]
    simp [*]

/-- The fields of a word laid out as STATUS is. -/
theorem statusLayout_fields (l k : BitVec 2) (d b : Bool) :
    let w := (0 : BitVec 26) ++ l ++ k ++ BitVec.ofBool d ++ BitVec.ofBool b
    w[0] = b ∧ w[1] = d ∧ w.extractLsb' 2 2 = k ∧ w.extractLsb' 4 2 = l ∧ w.extractLsb' 6 26 = 0 := by
  revert l k d b
  decide

/-- Settles O31: the layout is `statusWord`; STATUS is register 1, which is read as any register and written without
effect. -/
theorem statusRegister : Obligations.StatusRegister := by
  refine ⟨fun s => rfl, fun s => statusLayout_fields _ _ _ _, by decide, fun s => ?_, fun c => ?_,
    fun s rest h => step_of_load (k := 1) rfl h, fun s v rest h => step_of_store_ignored (k := 1) rfl (by decide) h⟩
  · simp [readReg, statusWord, Kind.code, LineDir.code]
  · simp [readReg, statusWord, State.afterReset, Kind.code, LineDir.code]

/-- Every byte of FRAME after reset is 0. -/
theorem zeroFrame_get : ∀ j : Fin 5, (#v[0, 0, 0, 0, 0] : Vector Byte 5)[j] = 0 := by decide

/-- Settles O36: the reset input's step is `hardReset`, which writes the values that `State.afterReset` has. -/
theorem resetState : Obligations.ResetState := by
  rintro s t rest (⟨hh, hs⟩ | ⟨c, rfl, rfl⟩)
  · rw [step_of_resetInput hh] at hs
    cases hs
    exact ⟨rfl, rfl, rfl, rfl, rfl, rfl, zeroFrame_get, rfl, rfl, rfl, rfl, rfl, rfl, rfl, rfl, rfl,
      State.hardReset_cfg _⟩
  · exact ⟨rfl, rfl, rfl, rfl, rfl, rfl, zeroFrame_get, rfl, rfl, rfl, rfl, rfl, rfl, rfl, rfl, rfl, rfl⟩

end Sys2Proof.Machine
end

section
/-! The invariant: each of its parts is kept by every row of the transition table, by START and by the reset input. -/

namespace Sys2Proof.Machine

variable {s t : State}

/-- Counting by one without a carry out. -/
theorem toNat_add_one_of_lt {w : Nat} {x : BitVec w} (h : x.toNat + 1 < 2 ^ w) : (x + 1#w).toNat = x.toNat + 1 := by
  rw [BitVec.toNat_add, BitVec.toNat_ofNat, Nat.add_mod_mod]
  exact Nat.mod_eq_of_lt h

/-- A counter below a limit of its own width does not wrap when it counts. -/
theorem toNat_add_one_of_lt_limit {w : Nat} {x l : BitVec w} (h : x.toNat < l.toNat) :
    (x + 1#w).toNat = x.toNat + 1 :=
  toNat_add_one_of_lt (by have := l.isLt; omega)

/-- If it does not reach the limit either, it has counted and is still below. -/
theorem add_one_lt_limit {w : Nat} {x l : BitVec w} (h : x.toNat < l.toNat) (hne : x + 1#w ≠ l) :
    0 < (x + 1#w).toNat ∧ (x + 1#w).toNat < l.toNat := by
  have hne' : (x + 1#w).toNat ≠ l.toNat := fun e => hne (BitVec.eq_of_toNat_eq e)
  rw [toNat_add_one_of_lt_limit h] at hne' ⊢
  omega

/-! ### Position -/

theorem IndicesFit.byteIdx_le (h : IndicesFit s) : s.byteIdx.toNat ≤ 5 := by
  unfold IndicesFit at h
  cases hp : s.phase <;> simp only [hp] at h
  case idle => exact h
  case bitRead => omega
  all_goals simp [h.1]

/-- A busy state has reported nothing. -/
theorem PositionInv.done_of_busy (h : PositionInv s) (hb : s.busy = true) : s.done = false := by
  simpa [hb] using h.notBoth

/-- The position between two transactions. -/
theorem positionInv_of_idle (hb : s.busy = false) (hp : s.phase = .idle) (hk : s.step = .s0)
    (hx : s.byteIdx.toNat ≤ 5) : PositionInv s where
  busyIff := by simp [hb, hp]
  notBoth := by simp [hb]
  inRange := by simp [stepInRange, hp, hk]
  presenceEntered := by simp [hp]
  indices := by simpa [IndicesFit, hp] using hx

/-- START's position, whatever was before. -/
theorem begin_position (s : State) : PositionInv s.begin :=
  ⟨by simp, by simp, by simp [stepInRange], by simp, by simp [IndicesFit]⟩

/-- Rows that complete stand at IDLE with BYTE_IDX as it was; byte end moves BYTE_IDX below 5, or to 5 with CHECKSUM; every
other row stays in or enters a phase with the same indices. -/
theorem turn_keeps_position (hi : PositionInv s) (h : Turn s t) : PositionInv t := by
  have hx := hi.indices.byteIdx_le
  have hd := hi.done_of_busy
  obtain ⟨-, -, -, entered, indices⟩ := id hi
  cases h
  case stay => exact hi
  case lowFails | releaseFails | sampleFails | presenceTimeout | thresholdTimeout | sumBad | decoded =>
    exact positionInv_of_idle rfl rfl rfl (by simpa using hx)
  case nextByte hb hp hk hi hj =>
    have hj' : (s.byteIdx + 1#3).toNat < 5 := by rw [toNat_add_one_of_lt] <;> omega
    exact ⟨by simp [hb], by simp [hd hb], by simp [stepInRange], by simp, hj'⟩
  case frameEnd hb hp hk hi hj =>
    have h4 : s.byteIdx = 4 := BitVec.eq_of_toNat_eq hj
    exact ⟨by simp [hb], by simp [hd hb], by simp [stepInRange], by simp, by simp [IndicesFit, h4]⟩
  all_goals constructor <;> simp_all [IndicesFit, stepInRange]

/-! ### LINE_DIR and POLL_CNT -/

/-- A line command sets LINE_DIR to what its new position needs, and to UNKNOWN when it fails; SAMPLE is issued on a released
line, which its failure and a Timeout leave so. -/
theorem turn_keeps_line (hi : LineInv s) (h : Turn s t) : LineInv t := by
  unfold LineInv at hi
  cases h
  case stay => exact hi
  case lowFails | releaseFails => simp [LineInv, Err.kind]
  case sampleFails hp => obtain ⟨hp, hk⟩ | ⟨hp, hk⟩ := hp <;> simp_all [LineInv]
  all_goals simp_all [LineInv]

/-- Where PRESENCE samples, its count is below the limit. -/
theorem PollInv.presence_lt (h : PollInv s) (hp : s.phase = .presence) (hk : s.step = .s1) :
    s.pollCnt.toNat < s.cfg.presencePolls.toNat := by
  simpa [PollInv, hp, hk] using h

/-- Where a THRESHOLD slot samples, its count is below the limit. -/
theorem PollInv.threshold_lt (h : PollInv s) (hp : s.phase = .bitRead) (hk : s.step = .s4)
    (hm : s.cfg.sampleMode = .threshold) : s.pollCnt.toNat < s.cfg.bitPollMax.toNat := by
  simpa [PollInv, hp, hk, hm] using h

/-- Where PRESENCE waits to sample again, too. -/
theorem PollInv.presencePoll_lt (h : PollInv s) (hp : s.phase = .presence) (hk : s.step = .s2) :
    s.pollCnt.toNat < s.cfg.presencePolls.toNat := by
  simp only [PollInv, hp, hk] at h
  exact h.2

/-- Where a slot waits to sample again, too. -/
theorem PollInv.thresholdPoll_lt (h : PollInv s) (hp : s.phase = .bitRead) (hk : s.step = .s5) :
    s.pollCnt.toNat < s.cfg.bitPollMax.toNat := by
  simp only [PollInv, hp, hk] at h
  exact h.2

/-- A loop begins at 0, below its legal limit; a counted sample has not reached the limit. -/
theorem turn_keeps_poll (hc : cfgLegal s.cfg = true) (hi : PollInv s) (h : Turn s t) : PollInv t := by
  simp only [cfgLegal, presencePollsLegal, bitLimitsLegal, Bool.and_eq_true, decide_eq_true_eq] at hc
  obtain ⟨hpolls, hbits, -⟩ := hc
  cases h
  case stay => exact hi
  case presenceCounted hb hp hk hl hc =>
    simpa [PollInv, -BitVec.toNat_add] using add_one_lt_limit (hi.presence_lt hp hk) hc
  case thresholdCounted hb hp hk hm hl hc =>
    simpa [PollInv, -BitVec.toNat_add] using add_one_lt_limit (hi.threshold_lt hp hk hm) hc
  all_goals
    unfold PollInv at hi
    simp_all [PollInv]

/-! ### CSUM and CUR -/

/-- R28 at a byte end: the stored data byte is what the sum gains. -/
theorem dataSum_storeFrame {f : Vector Byte 5} {k : BitVec 3} (b : Byte) (hk : k.toNat < 4) :
    dataSum (storeFrame f k b) (k.toNat + 1) = checksumAdd (dataSum f k.toNat) b := by
  have hk' : k.toNat = 0 ∨ k.toNat = 1 ∨ k.toNat = 2 ∨ k.toNat = 3 := by omega
  obtain h | h | h | h := hk' <;> simp [dataSum, storeFrame_get, checksumAdd, h]

/-- The fifth byte is no data byte. -/
theorem dataSum_storeFrame_fifth (f : Vector Byte 5) (b : Byte) : dataSum (storeFrame f 4 b) 5 = dataSum f 4 := by
  simp [dataSum, storeFrame_get]

/-- A sampled bit makes CUR one bit longer. -/
theorem WorkInv.shiftIn_cur_lt (h : WorkInv s) (hb : s.busy = true) (hk : s.step = .s4) (b : Bool) :
    (shiftIn s.cur b).toNat < 2 ^ (s.bitIdx.toNat + 1) :=
  shiftIn_toNat_of_lt (by simpa [hk] using h.cur hb)

/-- A data byte's end adds the byte to CSUM; a sample lengthens CUR before its bit is counted; nothing else moves them. -/
theorem turn_keeps_work (hi : WorkInv s) (h : Turn s t) : WorkInv t := by
  obtain ⟨sum, valid, cur⟩ := id hi
  cases h
  case stay => exact hi
  case lowFails | releaseFails | sampleFails | presenceTimeout | thresholdTimeout | sumBad | decoded =>
    exact ⟨by simp, by simp, by simp⟩
  case levelBit b hb hp hk hm =>
    exact ⟨by simpa using sum, by simp, fun _ => by simpa using hi.shiftIn_cur_lt hb hk b⟩
  case thresholdBit hb hp hk hm =>
    exact ⟨by simpa using sum, by simp, fun _ => by simpa using hi.shiftIn_cur_lt hb hk (thresholdBit s)⟩
  case nextBit hb hp hk hj =>
    have hlt : s.cur.toNat < 2 ^ (s.bitIdx + 1#3).toNat := by
      rw [toNat_add_one_of_lt (by omega)]
      simpa [hp, hk] using cur hb
    exact ⟨by simpa using sum, by simp, fun _ => by simpa using hlt⟩
  case nextByte hb hp hk hj hj' =>
    have hsum : checksumAdd s.csum s.cur =
        dataSum (storeFrame s.frame s.byteIdx s.cur) (s.byteIdx + 1#3).toNat := by
      rw [toNat_add_one_of_lt (by omega), dataSum_storeFrame _ hj', sum hb]
    exact ⟨fun _ => by simpa [hj'] using hsum, by simp, fun _ => by simp⟩
  case frameEnd hb hp hk hj hj' =>
    have h4 : s.byteIdx = 4 := BitVec.eq_of_toNat_eq hj'
    have hsum : s.csum = dataSum (storeFrame s.frame 4 s.cur) 5 := by
      rw [dataSum_storeFrame_fifth, sum hb, h4]
      rfl
    exact ⟨fun _ => by simpa [h4] using hsum, by simp, fun _ => by simp⟩
  all_goals constructor <;> simp_all

/-! ### The result registers -/

/-- While nothing is reported FRAME is not spoken of: the registers alone count. -/
theorem ResultInv.of_not_done (hi : ResultInv s) (hd : s.done = false) (done : t.done = s.done) (kind : t.kind = s.kind)
    (fault : t.fault = s.fault) (payload : t.payload = s.payload) (temp : t.temp = s.temp) (rh : t.rh = s.rh) :
    ResultInv t := by
  obtain ⟨faultZero, notDone, noPartial, -⟩ := hi
  constructor <;> simp_all

/-- Registers at their reset values report nothing. -/
theorem ResultInv.cleared (done : s.done = false) (kind : s.kind = .ok) (fault : s.fault = 0) (payload : s.payload = 0)
    (temp : s.temp = 0) (rh : s.rh = 0) : ResultInv s := by
  constructor <;> simp [*]

theorem resultInv_raise (s : State) (x : Err) : ResultInv (s.raise x) := by
  cases x <;> constructor <;> simp [Err.kind, Err.faultValue]

/-- At DECODE the whole frame has been summed, and CHECKSUM has found the sum equal to its fifth byte. -/
theorem dataSum_eq_of_decode (hp : PositionInv s) (hw : WorkInv s) (hph : s.phase = .decode) :
    dataSum s.frame 4 = s.frame[4] := by
  have hb : s.busy = true := hp.busyIff.2 (by simp [hph])
  have h5 : s.byteIdx = 5 := by
    have hind := hp.indices
    simp only [IndicesFit, hph] at hind
    exact hind.1
  rw [← hw.valid hph, hw.sum hb, h5]
  rfl

/-- Only DECODE reports a value; a failure writes zeros, and other rows leave the registers as START cleared them. -/
theorem turn_keeps_result (hp : PositionInv s) (hw : WorkInv s) (hi : ResultInv s) (h : Turn s t) : ResultInv t := by
  have hd := hp.done_of_busy
  cases h
  case stay => exact hi
  case lowFails | releaseFails | sampleFails | presenceTimeout | thresholdTimeout | sumBad => exact resultInv_raise _ _
  case decoded hb hph hk =>
    have hsum := dataSum_eq_of_decode hp hw hph
    exact ⟨by simp, by simp, by simp, fun _ _ => ⟨rfl, rfl, rfl, hsum⟩⟩
  all_goals exact hi.of_not_done (hd ‹_›) (by simp) (by simp) (by simp) (by simp) (by simp) (by simp)

/-! ### The length of the trace -/

/-- The bound of R234 in both modes: RESET's three commands, POST_RESET's one, the presence loop, and forty slots. -/
theorem transactionCommands_eq (c : Cfg) :
    transactionCommands c = 4 + 2 * pollsAllowed c + 40 * slotCommands c := by
  cases h : c.sampleMode <;> simp only [transactionCommands, slotCommands, h] <;> omega

theorem four_le_slotCommands (c : Cfg) : 4 ≤ slotCommands c := by
  unfold slotCommands
  split <;> omega

theorem pollsAllowed_of_check {c : Cfg} (h : c.presenceCheck = true) : pollsAllowed c = c.presencePolls.toNat := by
  simp [pollsAllowed, h]

@[simp] theorem commandsBefore_raise (s : State) (x : Err) : commandsBefore (s.raise x) = transactionCommands s.cfg := rfl

/-- Within a slot there is room for one more command: at the samples and polls of a THRESHOLD slot by the loop's limit. -/
theorem slotProgress_lt (hi : PollInv s) (hp : s.phase = .bitRead)
    (hr : stepInRange s.cfg.sampleMode s.phase s.step = true) : slotProgress s < slotCommands s.cfg := by
  have hslot := four_le_slotCommands s.cfg
  cases hk : s.step <;> simp only [slotProgress, hk]
  case s4 =>
    cases hm : s.cfg.sampleMode with
    | level => simp [slotCommands, hm]
    | threshold =>
      have hcnt := hi.threshold_lt hp hk hm
      simp only [slotCommands, hm, if_true]
      omega
  case s5 =>
    have hm : s.cfg.sampleMode = .threshold := by simpa [stepInRange, hp, hk] using hr
    have hcnt := hi.thresholdPoll_lt hp hk
    simp only [slotCommands, hm]
    omega
  all_goals omega

/-- A position that issues a command leaves room for it within the transaction's bound. -/
theorem commandsBefore_lt (hp : PositionInv s) (hi : PollInv s) (h0 : s.phase ≠ .idle)
    (h5 : s.phase ≠ .checksum) (h6 : s.phase ≠ .decode) : commandsBefore s < transactionCommands s.cfg := by
  have hslot := four_le_slotCommands s.cfg
  rw [transactionCommands_eq]
  unfold commandsBefore
  cases hph : s.phase <;> simp only [hph, ne_eq, not_true_eq_false] at h0 h5 h6 ⊢
  case reset => split <;> omega
  case presence =>
    have hpolls := pollsAllowed_of_check (hp.presenceEntered hph)
    have hr := hp.inRange
    cases hk : s.step <;> simp only [hph, hk, hpolls] at hr ⊢
    case s0 => omega
    case s1 =>
      have hcnt := hi.presence_lt hph hk
      omega
    case s2 =>
      have hcnt := hi.presencePoll_lt hph hk
      omega
    all_goals contradiction
  case postReset => omega
  case bitRead =>
    have hprog := slotProgress_lt hi hph hp.inRange
    have hb : s.byteIdx.toNat < 5 := by simpa [IndicesFit, hph] using hp.indices
    have hmul := Nat.mul_le_mul_left (slotCommands s.cfg)
      (show 8 * s.byteIdx.toNat + s.bitIdx.toNat + 1 ≤ 40 by omega)
    rw [Nat.mul_succ] at hmul
    omega

theorem commandsBefore_le (hp : PositionInv s) (hi : PollInv s) : commandsBefore s ≤ transactionCommands s.cfg := by
  by_cases h : s.phase = .idle ∨ s.phase = .checksum ∨ s.phase = .decode
  · obtain h | h | h := h <;> simp [commandsBefore, h, transactionCommands_eq]
  · simp only [not_or] at h
    obtain ⟨h0, h5, h6⟩ := h
    exact (commandsBefore_lt hp hi h0 h5 h6).le

/-- A row that issues a command keeps the bound if it moves to a position that allows one more. -/
theorem lengthInv_of_command (hl : LengthInv s) (ht : t.trace.length = s.trace.length + 1)
    (hc : commandsBefore s < commandsBefore t) : LengthInv t := by
  unfold LengthInv at hl ⊢
  omega

/-- A slot's last command is followed by the begin of the next slot. -/
theorem commandsBefore_slotEnd (hp : s.phase = .bitRead) (hk : s.step = .s6) :
    commandsBefore s + 1 = 4 + 2 * pollsAllowed s.cfg +
      slotCommands s.cfg * (8 * s.byteIdx.toNat + s.bitIdx.toNat + 1) := by
  have hslot := four_le_slotCommands s.cfg
  simp only [commandsBefore, hp, slotProgress, hk, Nat.mul_succ]
  omega

/-- Slot end within the frame, by the number of the slot. -/
theorem commandsBefore_lt_nextSlot (hp : s.phase = .bitRead) (hk : s.step = .s6) (hp' : t.phase = .bitRead)
    (hk' : t.step = .s0) (hc : t.cfg = s.cfg)
    (hn : 8 * t.byteIdx.toNat + t.bitIdx.toNat = 8 * s.byteIdx.toNat + s.bitIdx.toNat + 1) :
    commandsBefore s < commandsBefore t := by
  refine Nat.lt_of_succ_le ((commandsBefore_slotEnd hp hk).trans ?_).le
  simp only [commandsBefore, hp', slotProgress, hk', hc, hn, Nat.add_zero]

/-- Every row that issues a command moves to a position that allows one more; the others issue none. -/
theorem turn_keeps_length (hp : PositionInv s) (hi : PollInv s) (hl : LengthInv s) (h : Turn s t) : LengthInv t := by
  have hlt := commandsBefore_lt hp hi
  cases h
  case stay => exact hl
  case sumGood hb hph hk hc => simpa [LengthInv, commandsBefore, hph] using hl
  case sumBad hb hph hk hc => simpa [LengthInv, commandsBefore, hph, transactionCommands_eq] using hl
  case decoded hb hph hk => simpa [LengthInv, commandsBefore, hph, transactionCommands_eq] using hl
  all_goals refine lengthInv_of_command hl (by simp) ?_
  case lowFails | releaseFails | sampleFails | presenceTimeout | thresholdTimeout =>
    refine (hlt ?_ ?_ ?_).trans_eq (by simp)
    all_goals
      intro hc
      simp [hc] at *
  case resetToPostReset hb hph hk hc =>
    simp only [commandsBefore, hph, hk, State.goto_phase, State.goto_cfg]
    omega
  case presenceSeen hb hph hk =>
    have hcnt := hi.presence_lt hph hk
    simp [commandsBefore, hph, hk, pollsAllowed_of_check (hp.presenceEntered hph)]
    omega
  case presenceCounted hb hph hk _ hc =>
    simp [commandsBefore, hph, hk, toNat_add_one_of_lt_limit (hi.presence_lt hph hk), -BitVec.toNat_add]
    omega
  case postReset hb hph hk =>
    obtain ⟨hbyte, hbit⟩ : s.byteIdx = 0 ∧ s.bitIdx = 0 := by simpa [IndicesFit, hph] using hp.indices
    simp [commandsBefore, slotProgress, hph, hbyte, hbit]
  case levelBit hb hph hk hm => simp [commandsBefore, slotProgress, hph, hk, hm, slotCommands]
  case thresholdBit hb hph hk hm =>
    have hcnt := hi.threshold_lt hph hk hm
    simp [commandsBefore, slotProgress, hph, hk, hm, slotCommands]
    omega
  case thresholdCounted hb hph hk hm _ hc =>
    simp [commandsBefore, slotProgress, hph, hk, hm, toNat_add_one_of_lt_limit (hi.threshold_lt hph hk hm),
      -BitVec.toNat_add]
    omega
  case nextBit hb hph hk hj =>
    have hbit : (s.bitIdx + 1#3).toNat = s.bitIdx.toNat + 1 := toNat_add_one_of_lt (by omega)
    exact commandsBefore_lt_nextSlot hph hk rfl rfl rfl (by simp [hbit, Nat.add_assoc, -BitVec.toNat_add])
  case nextByte hb hph hk hj hj' =>
    have hbyte : (s.byteIdx + 1#3).toNat = s.byteIdx.toNat + 1 := toNat_add_one_of_lt (by omega)
    exact commandsBefore_lt_nextSlot hph hk rfl rfl rfl (by simp [hbyte, hj, Nat.mul_add, -BitVec.toNat_add])
  case frameEnd hb hph hk hj hj' =>
    refine Nat.lt_of_succ_le ((commandsBefore_slotEnd hph hk).trans ?_).le
    simp [commandsBefore, hj, hj', Nat.mul_comm]
  all_goals simp [commandsBefore, slotProgress, *]

/-! ### The whole invariant -/

theorem turn_keeps_inv (hi : StateInv s) (h : Turn s t) : StateInv t where
  legal := by rw [turn_cfg h]; exact hi.legal
  position := turn_keeps_position hi.position h
  line := turn_keeps_line hi.line h
  poll := turn_keeps_poll hi.legal hi.poll h
  work := turn_keeps_work hi.work h
  result := turn_keeps_result hi.position hi.work hi.result h
  length := turn_keeps_length hi.position hi.poll hi.length h

/-- Neither the host's schedule nor what it has read is spoken of by the invariant. -/
theorem StateInv.hostSide (h : StateInv s) (l : List HostEvent) (d : Option HostWord) :
    StateInv { s with host := l, hostData := d } := by
  obtain ⟨legal, ⟨busyIff, notBoth, inRange, entered, indices⟩, line, poll, ⟨sum, valid, cur⟩,
    ⟨faultZero, notDone, noPartial, success⟩, length⟩ := h
  exact ⟨legal, ⟨busyIff, notBoth, inRange, entered, indices⟩, line, poll, ⟨sum, valid, cur⟩,
    ⟨faultZero, notDone, noPartial, success⟩, length⟩

theorem begin_keeps_inv (hi : StateInv s) (hb : s.busy = false) : StateInv s.begin where
  legal := hi.legal
  position := begin_position s
  line := by
    have hp : s.phase = .idle := by simpa [hb] using hi.position.busyIff
    have hline := hi.line
    simp only [LineInv, hp] at hline
    exact hline.1
  poll := trivial
  work := ⟨fun _ => rfl, by simp, by simp⟩
  result := .cleared rfl rfl rfl rfl rfl rfl
  length := Nat.zero_le _

theorem hardReset_keeps_inv (hi : StateInv s) : StateInv s.hardReset where
  legal := by simpa using hi.legal
  position := positionInv_of_idle rfl rfl rfl (by simp)
  line := by simp [LineInv]
  poll := trivial
  work := ⟨by simp, by simp, by simp⟩
  result := .cleared rfl rfl rfl rfl rfl rfl
  length := by simpa [LengthInv, commandsBefore] using hi.length.trans (commandsBefore_le hi.position hi.poll)

theorem initial_inv (c : Cfg) (bus delay : List Reply) (host : List HostEvent) (hc : cfgLegal c = true) :
    StateInv (initial c bus delay host) where
  legal := hc
  position := positionInv_of_idle rfl rfl rfl (Nat.zero_le _)
  line := ⟨nofun, fun _ => rfl⟩
  poll := trivial
  work := ⟨nofun, nofun, nofun⟩
  result := .cleared rfl rfl rfl rfl rfl rfl
  length := Nat.zero_le _

theorem step_keeps_inv (hi : StateInv s) (h : step s = .next t) : StateInv t := by
  obtain ⟨u, hu, ht⟩ := step_cases h
  have hiu : StateInv u := by
    obtain rfl | ⟨e, rest, -, rfl⟩ := hu
    · exact hi
    · exact hi.hostSide rest s.hostData
  obtain hturn | ⟨hb, rfl⟩ | ⟨r, rfl⟩ | rfl | rfl := ht
  · exact turn_keeps_inv hiu (turn_of_engineTurn hturn)
  · exact begin_keeps_inv hiu hb
  · exact hiu.hostSide u.host _
  · exact hiu
  · exact hardReset_keeps_inv hiu

theorem reachable_inv (h : Reachable s) : StateInv s :=
  reachable_induction initial_inv (fun _ _ => step_keeps_inv) h

/-- Settles O40, part by part over the rows of the transition table, with START and the reset input beside them. -/
theorem everyStepKeepsTheInvariant : Obligations.EveryStepKeepsTheInvariant := fun _ _ => step_keeps_inv

/-- Settles O39: `REFCFG` is legal, and its reset state is the one before an empty environment and host. -/
theorem invariantHoldsAfterReset : Obligations.InvariantHoldsAfterReset :=
  ⟨initial_inv refCfg [] [] [] (by decide), initial_inv⟩

end Sys2Proof.Machine
end

section
/-! What the invariant says of the result registers and of the counters (10_state.md R23 to R25, R30 to R36). -/

namespace Sys2Proof.Machine

variable {s t : State}

/-- Settles O43, from the invariant's position and result parts. -/
theorem resultRegistersAreConsistent : Obligations.ResultRegistersAreConsistent := by
  intro s hs
  obtain ⟨-, position, -, -, -, ⟨faultZero, notDone, noPartial, -⟩, -⟩ := reachable_inv hs
  have fault : ¬ (s.done = true ∧ s.kind = .busFault) → readReg s .fault = 0 := by
    intro h
    have h0 : s.fault = 0 := faultZero fun hk => by
      cases hd : s.done with
      | true => exact h ⟨hd, hk⟩
      | false => simp [notDone hd] at hk
    simp [readReg, faultWord, h0]
  have values : ¬ (s.done = true ∧ s.kind = .ok) → readReg s .payload = 0 ∧ readReg s .reading = 0 := by
    intro h
    obtain ⟨hp, ht, hr⟩ := noPartial h
    simp [readReg, readingWord, hp, ht, hr]
  refine ⟨position.notBoth, fun hd => by simp [notDone hd, Kind.code], fault, values, fun hb => ?_⟩
  have hd := position.done_of_busy hb
  have hstatus : readReg s .status = (0 : BitVec 26) ++ s.lineDir.code ++ 0b0001#4 := by
    cases hl : s.lineDir <;> simp [readReg, statusWord, hb, hd, notDone hd, hl, Kind.code, LineDir.code]
  obtain ⟨hpay, hread⟩ := values (by simp [hd])
  exact ⟨hstatus, hpay, hread, fault (by simp [hd])⟩

/-- POLL_CNT is kept, set to 0 before a loop, or counted by the sample of one (R25). -/
def PollMoves (s t : State) : Prop :=
  t.pollCnt = s.pollCnt ∨
  (t.pollCnt = 0 ∧ ((s.phase = .presence ∧ s.step = .s0) ∨ (s.phase = .bitRead ∧ s.step = .s3))) ∨
  (t.pollCnt = s.pollCnt + 1#16 ∧ ((s.phase = .presence ∧ s.step = .s1) ∨
    (s.phase = .bitRead ∧ s.step = .s4 ∧ s.cfg.sampleMode = .threshold)))

theorem turn_pollMoves (h : Turn s t) : PollMoves s t := by
  cases h
  case presenceDelay hb hp hk => exact .inr (.inl ⟨rfl, .inl ⟨hp, hk⟩⟩)
  case settleThreshold hb hp hk hm => exact .inr (.inl ⟨rfl, .inr ⟨hp, hk⟩⟩)
  case presenceTimeout hb hp hk hl hc => exact .inr (.inr ⟨rfl, .inl ⟨hp, hk⟩⟩)
  case presenceCounted hb hp hk hl hc => exact .inr (.inr ⟨rfl, .inl ⟨hp, hk⟩⟩)
  case thresholdTimeout hb hp hk hm hl hc => exact .inr (.inr ⟨rfl, .inr ⟨hp, hk, hm⟩⟩)
  case thresholdCounted hb hp hk hm hl hc => exact .inr (.inr ⟨rfl, .inr ⟨hp, hk, hm⟩⟩)
  all_goals exact .inl (by simp)

/-- During a transaction only the reset input, which leaves BUSY = DONE = 0, does anything else to POLL_CNT. -/
theorem step_pollMoves (hb : s.busy = true) (h : step s = .next t) (ht : t.busy = true ∨ t.done = true) :
    PollMoves s t := by
  obtain ⟨u, hu, h⟩ := step_cases h
  have hbu : u.busy = true := by obtain rfl | ⟨e, rest, -, rfl⟩ := hu <;> exact hb
  have hmove : PollMoves u t := by
    obtain hturn | ⟨hidle, -⟩ | ⟨r, rfl⟩ | rfl | rfl := h
    · exact turn_pollMoves (turn_of_engineTurn hturn)
    · simp [hbu] at hidle
    · exact .inl rfl
    · exact .inl rfl
    · simp at ht
  obtain rfl | ⟨e, rest, -, rfl⟩ := hu <;> exact hmove

/-- Settles O45: BYTE_IDX by the position part of the invariant; POLL_CNT is counted only where it is below its limit. -/
theorem countersStayInRange : Obligations.CountersStayInRange := by
  intro s t hi h
  have hbusy : s.phase ≠ .idle → s.busy = true := hi.position.busyIff.2
  refine ⟨(step_keeps_inv hi h).position.indices.byteIdx_le, fun hp ht hne h0 => ?_, fun hp ht hne h3 => ?_⟩
  · obtain hc | ⟨-, hc⟩ | ⟨hc, hk⟩ := step_pollMoves (hbusy (by simp [hp])) h ht
    · exact absurd hc hne
    · simp [hp, h0] at hc
    · have hlt := hi.poll.presence_lt hp (by simpa [hp] using hk)
      rw [hc, toNat_add_one_of_lt_limit hlt]
      exact ⟨rfl, hlt⟩
  · obtain hc | ⟨-, hc⟩ | ⟨hc, hk⟩ := step_pollMoves (hbusy (by simp [hp])) h ht
    · exact absurd hc hne
    · simp [hp, h3] at hc
    · obtain ⟨hk, hm⟩ : s.step = .s4 ∧ s.cfg.sampleMode = .threshold := by simpa [hp] using hk
      have hlt := hi.poll.threshold_lt hp hk hm
      rw [hc, toNat_add_one_of_lt_limit hlt]
      exact ⟨rfl, hlt⟩

end Sys2Proof.Machine
end

section
/-! Two runs of a transaction (10_state.md R38): states that differ only in what START leaves behind stay so, step by step. -/

namespace Sys2Proof.Machine

variable {s t : State}

/-- Two states of a transaction that differ only in what START leaves: LINE_DIR, and the bytes of FRAME this transaction
has not stored yet (10_state.md R38; log 8 for what the host has read). -/
def Alike (s t : State) : Prop :=
  ∃ (f : Vector Byte 5) (d : LineDir) (o : Option HostWord), t = { s with frame := f, lineDir := d, hostData := o } ∧
    ∀ (j : Nat) (h : j < 5), j < s.byteIdx.toNat → f[j] = s.frame[j]

namespace Alike

theorem cfg_eq (h : Alike s t) : t.cfg = s.cfg := by obtain ⟨f, d, o, rfl, -⟩ := h; rfl
theorem phase_eq (h : Alike s t) : t.phase = s.phase := by obtain ⟨f, d, o, rfl, -⟩ := h; rfl
theorem step_eq (h : Alike s t) : t.step = s.step := by obtain ⟨f, d, o, rfl, -⟩ := h; rfl
theorem busy_eq (h : Alike s t) : t.busy = s.busy := by obtain ⟨f, d, o, rfl, -⟩ := h; rfl
theorem byteIdx_eq (h : Alike s t) : t.byteIdx = s.byteIdx := by obtain ⟨f, d, o, rfl, -⟩ := h; rfl
theorem bitIdx_eq (h : Alike s t) : t.bitIdx = s.bitIdx := by obtain ⟨f, d, o, rfl, -⟩ := h; rfl
theorem pollCnt_eq (h : Alike s t) : t.pollCnt = s.pollCnt := by obtain ⟨f, d, o, rfl, -⟩ := h; rfl
theorem cur_eq (h : Alike s t) : t.cur = s.cur := by obtain ⟨f, d, o, rfl, -⟩ := h; rfl
theorem csum_eq (h : Alike s t) : t.csum = s.csum := by obtain ⟨f, d, o, rfl, -⟩ := h; rfl
theorem host_eq (h : Alike s t) : t.host = s.host := by obtain ⟨f, d, o, rfl, -⟩ := h; rfl

/-! The named updates keep states alike. -/

theorem goto (h : Alike s t) (p : Phase) (k : Step) : Alike (s.goto p k) (t.goto p k) := by
  obtain ⟨f, d, o, rfl, hf⟩ := h
  exact ⟨f, d, o, rfl, hf⟩

theorem setLineDir (h : Alike s t) (d : LineDir) : Alike (s.setLineDir d) (t.setLineDir d) := by
  obtain ⟨f, -, o, rfl, hf⟩ := h
  exact ⟨f, d, o, rfl, hf⟩

theorem setPollCnt (h : Alike s t) (n : BitVec 16) : Alike (s.setPollCnt n) (t.setPollCnt n) := by
  obtain ⟨f, d, o, rfl, hf⟩ := h
  exact ⟨f, d, o, rfl, hf⟩

theorem setCur (h : Alike s t) (v : Byte) : Alike (s.setCur v) (t.setCur v) := by
  obtain ⟨f, d, o, rfl, hf⟩ := h
  exact ⟨f, d, o, rfl, hf⟩

theorem raise (h : Alike s t) (x : Err) : Alike (s.raise x) (t.raise x) := by
  obtain ⟨f, d, o, rfl, hf⟩ := h
  exact ⟨f, d, o, rfl, hf⟩

theorem record (h : Alike s t) (i : Instr) (a : Answer) : Alike (s.record i a) (t.record i a) := by
  obtain ⟨f, d, o, rfl, hf⟩ := h
  exact ⟨f, d, o, rfl, hf⟩

theorem dropDelay (h : Alike s t) : Alike s.dropDelay t.dropDelay := by
  obtain ⟨f, d, o, rfl, hf⟩ := h
  exact ⟨f, d, o, rfl, hf⟩

theorem dropBus (h : Alike s t) : Alike s.dropBus t.dropBus := by
  obtain ⟨f, d, o, rfl, hf⟩ := h
  refine ⟨f, d, o, ?_, by simpa using hf⟩
  cases hb : s.bus <;> simp [State.dropBus, hb]

theorem bitCounted (h : Alike s t) : Alike (bitCounted s) (bitCounted t) := by
  obtain ⟨f, d, o, rfl, hf⟩ := h
  exact ⟨f, d, o, rfl, hf⟩

/-- The byte that byte end stores is the transaction's own, so one byte more agrees. -/
theorem byteStored (h : Alike s t) : Alike (byteStored s) (byteStored t) := by
  obtain ⟨f, d, o, rfl, hf⟩ := h
  refine ⟨storeFrame f s.byteIdx s.cur, d, o, rfl, fun j hj hlt => ?_⟩
  simp only [byteStored_frame, storeFrame_get]
  split
  · rfl
  · refine hf j hj ?_
    have : (s.byteIdx + 1#3).toNat ≤ s.byteIdx.toNat + 1 := by
      simpa [BitVec.toNat_add] using Nat.mod_le _ _
    simp only [byteStored_byteIdx] at hlt
    omega

/-- Once the frame is whole, it is the same frame. -/
theorem frame_eq (h : Alike s t) (h5 : s.byteIdx = 5) : t.frame = s.frame := by
  obtain ⟨f, d, o, rfl, hf⟩ := h
  exact Vector.ext fun j hj => hf j hj (by simpa [h5] using hj)

/-- Success completion copies from FRAME. -/
theorem succeed (h : Alike s t) (hf : t.frame = s.frame) (rh temp : Byte) :
    Alike (s.succeed rh temp) (t.succeed rh temp) := by
  obtain ⟨f, d, o, rfl, -⟩ := h
  obtain rfl : f = s.frame := hf
  exact ⟨_, d, o, rfl, fun _ _ _ => rfl⟩

theorem ite {c : Prop} [Decidable c] {s' t' : State} (h : Alike s t) (h' : Alike s' t') :
    Alike (if c then s else s') (if c then t else t') := by
  split
  · exact h
  · exact h'

end Alike

/-- Outcomes that, where both are next states, are alike. -/
def AlikeResults (r r' : Result) : Prop := ∀ s t, r = .next s → r' = .next t → Alike s t

theorem alikeResults_next (h : Alike s t) : AlikeResults (.next s) (.next t) := by
  rintro _ _ ⟨⟩ ⟨⟩; exact h

/-- A refusal is alike to anything: no state is claimed to follow. -/
theorem alikeResults_refused (e : Refusal) (r : Result) : AlikeResults (.refused e) r := fun _ _ h => by cases h

theorem alikeResults_ite {c : Prop} [Decidable c] {q q' r r' : Result} (h : AlikeResults q r) (h' : AlikeResults q' r') :
    AlikeResults (if c then q else q') (if c then r else r') := by
  split
  · exact h
  · exact h'

/-- Alike states get the same answer, so a line command goes the same way in both. -/
theorem alike_busCommand (h : Alike s t) (i : Instr) (a : RspWord → Answer) {failed : State → State}
    {k : RspWord → State → State} (hfail : ∀ {u v}, Alike u v → Alike (failed u) (failed v))
    (hk : ∀ {u v} r, Alike u v → Alike (k r u) (k r v)) :
    AlikeResults (busCommand i a s failed k) (busCommand i a t failed k) := by
  have hr : t.busReply = s.busReply := by obtain ⟨f, d, o, rfl, -⟩ := h; rfl
  unfold busCommand
  rw [hr]
  cases s.busReply with
  | silent => exact alikeResults_next h
  | word r =>
    refine alikeResults_next ?_
    have hrec := h.dropBus.record i (a r)
    exact ((hfail hrec).raise _).ite (hk r hrec)

theorem alike_driveLow (h : Alike s t) {k : State → State} (hk : ∀ {u v}, Alike u v → Alike (k u) (k v)) :
    AlikeResults (driveLow s k) (driveLow t k) :=
  alike_busCommand h _ _ (·.setLineDir _) fun _ h => hk (h.setLineDir _)

theorem alike_release (h : Alike s t) {k : State → State} (hk : ∀ {u v}, Alike u v → Alike (k u) (k v)) :
    AlikeResults (release s k) (release t k) :=
  alike_busCommand h _ _ (·.setLineDir _) fun _ h => hk (h.setLineDir _)

theorem alike_sample (h : Alike s t) {k : Bool → State → State} (hk : ∀ {u v} b, Alike u v → Alike (k b u) (k b v)) :
    AlikeResults (sample s k) (sample t k) :=
  alike_busCommand h _ _ id fun r => hk (rspLevel r)

theorem alike_waitFor (h : Alike s t) (d : Duration) {k : State → Result}
    (hk : ∀ {u v}, Alike u v → AlikeResults (k u) (k v)) : AlikeResults (waitFor d s k) (waitFor d t k) := by
  have hr : t.delayReply = s.delayReply := by obtain ⟨f, d, o, rfl, -⟩ := h; rfl
  unfold waitFor
  rw [hr]
  cases s.delayReply with
  | silent => exact alikeResults_next h
  | word r =>
    cases hf : rspFail r with
    | true => simpa [hf] using alikeResults_refused _ _
    | false => simpa [hf] using hk (h.dropDelay.record _ _)

theorem alike_waitThenGoto (h : Alike s t) (d : Duration) (p : Phase) (k : Step) :
    AlikeResults (waitFor d s (fun u => .next (u.goto p k))) (waitFor d t (fun u => .next (u.goto p k))) :=
  alike_waitFor h d fun h => alikeResults_next (h.goto p k)

theorem alike_execReset (h : Alike s t) : AlikeResults (execReset s) (execReset t) := by
  unfold execReset
  rw [h.step_eq, h.cfg_eq]
  cases s.step
  case s0 => exact alike_driveLow h (·.goto _ _)
  case s1 => exact alike_waitThenGoto h _ _ _
  case s2 =>
    refine alike_release h fun h => ?_
    unfold afterResetPulse
    rw [h.cfg_eq]
    exact (h.goto _ _).ite (h.goto _ _)
  all_goals exact alikeResults_refused _ _

theorem Alike.presenceSampled (b : Bool) (h : Alike s t) : Alike (presenceSampled b s) (presenceSampled b t) := by
  simp only [Machine.presenceSampled, h.pollCnt_eq, State.setPollCnt_pollCnt, State.setPollCnt_cfg, h.cfg_eq]
  exact (((h.setPollCnt _).raise _).ite ((h.setPollCnt _).goto _ _)).ite (h.goto _ _)

theorem Alike.thresholdSampled (b : Bool) (h : Alike s t) : Alike (thresholdSampled b s) (thresholdSampled b t) := by
  simp only [Machine.thresholdSampled, thresholdBit, h.pollCnt_eq, State.setPollCnt_pollCnt, State.setPollCnt_cfg, h.cfg_eq,
    h.cur_eq]
  exact ((h.setCur _).goto _ _).ite (((h.setPollCnt _).raise _).ite ((h.setPollCnt _).goto _ _))

theorem Alike.levelSampled (b : Bool) (h : Alike s t) : Alike (levelSampled b s) (levelSampled b t) := by
  simp only [Machine.levelSampled, h.cur_eq]
  exact (h.setCur _).goto _ _

theorem alike_execPresence (h : Alike s t) : AlikeResults (execPresence s) (execPresence t) := by
  unfold execPresence
  rw [h.step_eq, h.cfg_eq]
  cases s.step
  case s0 => exact alike_waitFor h _ fun h => alikeResults_next ((h.setPollCnt 0).goto _ _)
  case s1 => exact alikeResults_ite (alike_sample h Alike.presenceSampled) (alikeResults_refused _ _)
  case s2 => exact alike_waitThenGoto h _ _ _
  all_goals exact alikeResults_refused _ _

theorem alike_execPostReset (h : Alike s t) : AlikeResults (execPostReset s) (execPostReset t) := by
  unfold execPostReset
  rw [h.step_eq, h.cfg_eq]
  cases s.step
  case s0 => exact alike_waitThenGoto h _ _ _
  all_goals exact alikeResults_refused _ _

theorem alike_slotEnd (h : Alike s t) : AlikeResults (slotEnd s) (slotEnd t) := by
  unfold slotEnd byteEnd
  rw [h.bitIdx_eq, h.byteIdx_eq]
  exact alikeResults_ite (alikeResults_next (h.bitCounted.goto _ _))
    (alikeResults_ite (alikeResults_next (h.byteStored.goto _ _))
      (alikeResults_ite (alikeResults_next (h.byteStored.goto _ _)) (alikeResults_refused _ _)))

theorem alike_slotOpen (h : Alike s t) : AlikeResults (slotOpen s) (slotOpen t) :=
  alike_driveLow h (·.goto _ _)

theorem alike_slotHold (h : Alike s t) : AlikeResults (slotHold s) (slotHold t) := by
  unfold slotHold
  rw [h.cfg_eq]
  exact alike_waitThenGoto h _ _ _

theorem alike_slotRelease (h : Alike s t) : AlikeResults (slotRelease s) (slotRelease t) :=
  alike_release h (·.goto _ _)

theorem alike_slotRecover (h : Alike s t) : AlikeResults (slotRecover s) (slotRecover t) := by
  unfold slotRecover
  rw [h.cfg_eq]
  exact alike_waitFor h _ alike_slotEnd

theorem alike_execBitReadL (h : Alike s t) : AlikeResults (execBitReadL s) (execBitReadL t) := by
  unfold execBitReadL
  rw [h.step_eq, h.cfg_eq]
  cases s.step
  case s0 => exact alike_slotOpen h
  case s1 => exact alike_slotHold h
  case s2 => exact alike_slotRelease h
  case s3 => exact alike_waitThenGoto h _ _ _
  case s4 => exact alike_sample h Alike.levelSampled
  case s5 => exact alikeResults_refused _ _
  case s6 => exact alike_slotRecover h

theorem alike_execBitReadT (h : Alike s t) : AlikeResults (execBitReadT s) (execBitReadT t) := by
  unfold execBitReadT
  rw [h.step_eq, h.cfg_eq]
  cases s.step
  case s0 => exact alike_slotOpen h
  case s1 => exact alike_slotHold h
  case s2 => exact alike_slotRelease h
  case s3 => exact alike_waitFor h _ fun h => alikeResults_next ((h.setPollCnt 0).goto _ _)
  case s4 => exact alikeResults_ite (alike_sample h Alike.thresholdSampled) (alikeResults_refused _ _)
  case s5 => exact alike_waitThenGoto h _ _ _
  case s6 => exact alike_slotRecover h

theorem alike_execChecksumValidate (h : Alike s t) (hf : t.frame = s.frame) :
    AlikeResults (execChecksumValidate s) (execChecksumValidate t) := by
  unfold execChecksumValidate checksumEqual
  rw [h.step_eq, h.csum_eq, hf]
  cases s.step
  case s0 => exact alikeResults_next ((h.goto _ _).ite (h.raise _))
  all_goals exact alikeResults_refused _ _

theorem alike_execDecode (h : Alike s t) (hf : t.frame = s.frame) : AlikeResults (execDecode s) (execDecode t) := by
  unfold execDecode
  rw [h.step_eq, hf]
  cases s.step
  case s0 => exact alikeResults_next (h.succeed hf _ _)
  all_goals exact alikeResults_refused _ _

/-- Alike states take alike turns; the position says that the frame is whole where it is looked at. -/
theorem alike_engineTurn (hp : PositionInv s) (h : Alike s t) : AlikeResults (engineTurn s) (engineTurn t) := by
  have hind := hp.indices
  unfold engineTurn
  rw [h.busy_eq, h.phase_eq, h.cfg_eq]
  cases s.busy
  case false => exact alikeResults_next h
  unfold IndicesFit at hind
  cases hph : s.phase <;> simp only [hph] at hind
  case idle => exact alikeResults_next h
  case reset => exact alike_execReset h
  case presence => exact alike_execPresence h
  case postReset => exact alike_execPostReset h
  case bitRead =>
    cases s.cfg.sampleMode
    case level => exact alike_execBitReadL h
    case threshold => exact alike_execBitReadT h
  case checksum => exact alike_execChecksumValidate h (h.frame_eq hind.1)
  case decode => exact alike_execDecode h (h.frame_eq hind.1)

/-- The engine does not touch the host's schedule. -/
theorem turn_host (h : Turn s t) : t.host = s.host := by
  cases h <;> simp

/-- Alike states stay alike over runs the host leaves alone. -/
theorem alike_run (n : Nat) {s' t' : State} (hp : PositionInv s) (hh : s.host = []) (h : Alike s t)
    (hs : Sys2Proof.core.run n s = .next s') (ht : Sys2Proof.core.run n t = .next t') : Alike s' t' := by
  induction n generalizing s t with
  | zero => cases hs; cases ht; exact h
  | succ n ih =>
    obtain ⟨u, hu, hs⟩ := run_succ_cases n hs
    obtain ⟨v, hv, ht⟩ := run_succ_cases n ht
    rw [step_of_no_host hh] at hu
    rw [step_of_no_host (h.host_eq.trans hh)] at hv
    have hturn := turn_of_engineTurn hu
    exact ih (turn_keeps_position hp hturn) ((turn_host hturn).trans hh) (alike_engineTurn hp h u v hu hv) hs ht

theorem Alike.sameOutcome (h : Alike s t) : SameOutcome s t := by
  obtain ⟨f, d, o, rfl, -⟩ := h
  exact ⟨rfl, rfl, rfl, rfl, rfl, rfl, rfl, rfl⟩

/-- START leaves of two idle states only FRAME, LINE_DIR and what the host has read to tell them apart. -/
theorem alike_begin (hcfg : s.cfg = t.cfg) (hbus : s.bus = t.bus) (hdelay : s.delay = t.delay)
    (hfree : s.freeCount = t.freeCount) (hhost : s.host = t.host) : Alike s.begin t.begin := by
  refine ⟨t.frame, t.lineDir, t.hostData, ?_, by simp⟩
  simp [State.begin, hcfg, hbus, hdelay, hfree, hhost]

/-- Settles O53, by simulation: after START the two runs stay alike, and alike states have the same outcome. -/
theorem transactionsDoNotDependOnHistory : Obligations.TransactionsDoNotDependOnHistory := by
  intro s t n s' t' _ _ hcfg hbus hdelay hfree hs ht hrs hrt
  exact (alike_run n (begin_position s) hs
    (alike_begin hcfg hbus hdelay hfree (hs.trans ht.symm)) hrs hrt).sameOutcome

end Sys2Proof.Machine
end

section
/-! Proofs of the family of 20_memory.md: the host's accesses (R50 to R53), and what happens while BUSY = 0 (R55). -/

namespace Sys2Proof.Machine

variable {s t u : State}

/-! ### The host's accesses -/

/-- An access that reaches no register is refused with the reason `regOfAccess` names. -/
theorem step_of_refused_access {addr size : Nat} {v : HostWord} {e : Refusal} {rest : List HostEvent}
    (he : regOfAccess s.cfg.oweBase addr size = .error e)
    (h : s.host = .load addr size :: rest ∨ s.host = .store addr size v :: rest) : step s = .refused e := by
  obtain h | h := h
  · rw [step_of_host h]
    simp [hostFetch, hostLoad, runFetched, he]
  · rw [step_of_host h]
    simp [hostFetch, hostStore, runFetched, he]

theorem regOfAccess_wrongWidth {base addr size : Nat} (h : size ≠ 4) :
    regOfAccess base addr size = .error .wrongAccessWidth := by
  simp [regOfAccess, h]

theorem regOfAccess_misaligned {base addr : Nat} (hle : base ≤ addr) (h : (addr - base) % 4 ≠ 0) :
    regOfAccess base addr 4 = .error .misalignedAccess := by
  simp [regOfAccess, Nat.not_lt.mpr hle, h]

theorem regOfNumber_of_four_lt {r : Nat} (h : 4 < r) : regOfNumber r = .error .noSuchRegister := by
  match r, h with
  | n + 5, _ => rfl

/-- Settles O33: each clause is one way `regOfAccess` finds no register, and the step is refused with its reason. -/
theorem hostAccessesWithoutMeaningAreRefused : Obligations.HostAccessesWithoutMeaningAreRefused := by
  intro s addr size v rest h
  refine ⟨fun hs => ?_, fun hs hle hm => ?_, fun r hs ha hr => ?_⟩
  · exact step_of_refused_access (regOfAccess_wrongWidth hs) h
  · subst hs
    exact step_of_refused_access (regOfAccess_misaligned hle hm) h
  · subst hs ha
    exact step_of_refused_access ((regOfAccess_register _ r).trans (regOfNumber_of_four_lt hr)) h

/-- A CTRL write with bit 0 clear is ignored. -/
theorem step_of_store_notStart {v : HostWord} {rest : List HostEvent} (hv : v[0] = false)
    (h : s.host = .store (s.cfg.oweBase + 4 * 0) 4 v :: rest) : step s = .next { s with host := rest } := by
  rw [step_of_host h]
  simp only [hostFetch, hostStore, runFetched, regOfAccess_register, regOfNumber, hv, Bool.false_eq_true, if_false]

/-- CTRL is register 0 only (20_memory.md R50). -/
theorem regOfNumber_of_ne_zero {k : Fin 5} (h : k ≠ 0) : ∃ r, regOfNumber k = .ok r ∧ r ≠ .ctrl := by
  match k, h with
  | 1, _ => exact ⟨.status, rfl, by decide⟩
  | 2, _ => exact ⟨.payload, rfl, by decide⟩
  | 3, _ => exact ⟨.reading, rfl, by decide⟩
  | 4, _ => exact ⟨.fault, rfl, by decide⟩

/-- The fields of a word laid out as READING is (10_state.md R35). -/
theorem readingLayout_fields (z : BitVec 16) (a b : Byte) :
    (z ++ a ++ b).extractLsb' 8 8 = a ∧ (z ++ a ++ b).extractLsb' 0 8 = b ∧ (z ++ a ++ b).extractLsb' 16 16 = z :=
  ⟨(BitVec.extractLsb'_append_eq_of_le (by decide)).trans BitVec.extractLsb'_append_eq_right,
    BitVec.extractLsb'_append_eq_right,
    (BitVec.extractLsb'_append_eq_of_le (by decide)).trans BitVec.extractLsb'_append_eq_left⟩

/-- The bytes of a word laid out as PAYLOAD is, the first one the most significant (20_memory.md R58). -/
theorem payloadLayout_fields (a b c d : Byte) :
    (a ++ b ++ c ++ d).extractLsb' 24 8 = a ∧ (a ++ b ++ c ++ d).extractLsb' 16 8 = b ∧
      (a ++ b ++ c ++ d).extractLsb' 8 8 = c ∧ (a ++ b ++ c ++ d).extractLsb' 0 8 = d := by
  obtain ⟨hc, hd, hab⟩ := readingLayout_fields (a ++ b) c d
  refine ⟨?_, ?_, hc, hd⟩
  · exact (BitVec.extractLsb'_append_eq_of_le (by decide)).trans
      ((BitVec.extractLsb'_append_eq_of_le (by decide)).trans BitVec.extractLsb'_append_eq_left)
  · exact (BitVec.extractLsb'_append_eq_of_le (by decide)).trans
      ((BitVec.extractLsb'_append_eq_of_le (by decide)).trans BitVec.extractLsb'_append_eq_right)

/-- Settles O32: reads and ignored writes by the register they reach, and the layouts by their fields. -/
theorem hostReadsAndIgnoredWrites : Obligations.HostReadsAndIgnoredWrites := by
  refine ⟨fun s k r rest hr h => step_of_load hr h, fun s rest d h => ?_, fun s k v rest hkv h => ?_,
    fun s => ?_, fun f => payloadLayout_fields _ _ _ _⟩
  · obtain ⟨h, rfl⟩ | ⟨h, rfl⟩ | ⟨h, rfl⟩ | ⟨h, rfl⟩ | ⟨h, rfl⟩ := h
    · exact step_of_load (k := 0) (r := .ctrl) rfl h
    · exact step_of_load (k := 1) (r := .status) rfl h
    · exact step_of_load (k := 2) (r := .payload) rfl h
    · exact step_of_load (k := 3) (r := .reading) rfl h
    · exact step_of_load (k := 4) (r := .fault) rfl h
  · by_cases hk : k = 0
    · subst hk
      exact step_of_store_notStart (hkv.resolve_left (by simp)) h
    · obtain ⟨r, hr, hc⟩ := regOfNumber_of_ne_zero hk
      exact step_of_store_ignored hr hc h
  · obtain ⟨htemp, hrh, hzero⟩ := readingLayout_fields 0 s.temp s.rh
    exact ⟨rfl, rfl, htemp, hrh, hzero, BitVec.extractLsb'_append_eq_right, BitVec.extractLsb'_append_eq_left⟩

/-! ### While BUSY = 0 -/

theorem engineTurn_of_idle (hb : s.busy = false) : engineTurn s = .next s := by
  simp [engineTurn, hb]

/-- While BUSY = 0 no command is outstanding, so the reset input discards no answer. -/
theorem dropOutstanding_of_idle (hb : s.busy = false) : s.dropOutstanding = s := by
  simp [State.dropOutstanding, State.outstanding, hb]

theorem hardReset_environment_of_idle (hb : s.busy = false) :
    s.hardReset.bus = s.bus ∧ s.hardReset.delay = s.delay ∧ s.hardReset.freeCount = s.freeCount := by
  simp [State.hardReset, dropOutstanding_of_idle hb]

/-- Settles O28: of what a step can do, only START touches the trace while BUSY = 0, and nothing takes an answer. -/
theorem noCommandIsIssuedWhileIdle : Obligations.NoCommandIsIssuedWhileIdle := by
  intro s t hb h
  obtain ⟨u, hu, ht⟩ := step_cases h
  have hsame : u.busy = s.busy ∧ u.trace = s.trace ∧ u.bus = s.bus ∧ u.delay = s.delay ∧
      u.freeCount = s.freeCount := by
    obtain rfl | ⟨e, rest, -, rfl⟩ := hu <;> exact ⟨rfl, rfl, rfl, rfl, rfl⟩
  obtain ⟨hbusy, htrace, hbus, hdelay, hfree⟩ := hsame
  rw [← htrace, ← hbus, ← hdelay, ← hfree]
  have hbu : u.busy = false := hbusy.trans hb
  obtain hturn | ⟨-, rfl⟩ | ⟨r, rfl⟩ | rfl | rfl := ht
  · rw [engineTurn_of_idle hbu] at hturn
    cases hturn
    exact ⟨.inl rfl, rfl, rfl, rfl⟩
  · exact ⟨.inr ⟨rfl, rfl⟩, rfl, rfl, rfl⟩
  · exact ⟨.inl rfl, rfl, rfl, rfl⟩
  · exact ⟨.inl rfl, rfl, rfl, rfl⟩
  · exact ⟨.inl (State.hardReset_trace u), hardReset_environment_of_idle hbu⟩

end Sys2Proof.Machine
end

section
/-! Proofs of the family of 20_memory.md: the capability port (R56). Every position with a command has one normal form,
`Issues`, from which both the waiting and the exchange are read off. -/

namespace Sys2Proof.Machine

variable {s t u : State}

/-- `q` is what a step that issues the command `c` from `s` answers: the command goes out once, by its own port operation,
and neither its failure nor what the routine goes on with adds to the trace. -/
inductive Issues (s : State) : Instr → Result → Prop
  | line {c : Instr} {answer : RspWord → Answer} {failed : State → State} {k : RspWord → State → State}
      (toLine : toBusLine c = true) (decoded : ∀ r, decodeResponse c r = some (answer r))
      (failedTrace : ∀ v, (failed v).trace = v.trace) (restTrace : ∀ r v, (k r v).trace = v.trace) :
      Issues s c (busCommand c answer s failed k)
  | wait (d : Duration) {k : State → Result} (restTrace : ∀ v w, k v = .next w → w.trace = v.trace) :
      Issues s (waitInstr d) (waitFor d s k)

theorem issues_driveLow {k : State → State} (hk : ∀ v, (k v).trace = v.trace) :
    Issues s .driveLow (driveLow s k) :=
  .line rfl (fun _ => rfl) (fun _ => rfl) (fun _ _ => hk _)

theorem issues_release {k : State → State} (hk : ∀ v, (k v).trace = v.trace) :
    Issues s .release (release s k) :=
  .line rfl (fun _ => rfl) (fun _ => rfl) (fun _ _ => hk _)

theorem issues_sample {k : Bool → State → State} (hk : ∀ b v, (k b v).trace = v.trace) :
    Issues s .sample (sample s k) :=
  .line rfl (fun _ => rfl) (fun _ => rfl) (fun _ _ => hk _ _)

/-- A wait after which the routine goes to a next state. -/
theorem issues_wait (d : Duration) {k : State → State} (hk : ∀ v, (k v).trace = v.trace) :
    Issues s (waitInstr d) (waitFor d s (fun v => .next (k v))) :=
  .wait d fun v _ h => by cases h; exact hk v

@[simp] theorem replyTo_waitInstr (d : Duration) (s : State) : replyTo (waitInstr d) s = s.delayReply := by
  unfold waitInstr
  cases d.unit <;> rfl

theorem decodeResponse_waitInstr (d : Duration) {r : RspWord} (h : rspFail r = false) :
    decodeResponse (waitInstr d) r = some .ok := by
  unfold waitInstr
  cases d.unit <;> simp [decodeResponse, h]

/-- A command that gets no answer leaves the state as it is (93_implementation_defined.md U9). -/
theorem Issues.eq_of_silent {c : Instr} {q : Result} (h : Issues s c q) (hr : replyTo c s = .silent) : q = .next s := by
  cases h with
  | line toLine =>
    have hr' : s.busReply = .silent := by simpa [replyTo, toLine] using hr
    simp [busCommand, hr']
  | wait d =>
    have hr' : s.delayReply = .silent := by simpa using hr
    simp [waitFor, hr']

/-- The command waits, or its exchange with the answer it got is the one new entry of the trace (20_memory.md R56). -/
theorem Issues.next_cases {c : Instr} {q : Result} (h : Issues s c q) (hq : q = .next t) :
    (replyTo c s = .silent ∧ t = s) ∨
    (∃ r a, replyTo c s = .word r ∧ decodeResponse c r = some a ∧ t.trace = s.trace ++ [⟨portWord c, a⟩]) := by
  cases h with
  | @line c answer failed k toLine decoded failedTrace restTrace =>
    have hto : replyTo c s = s.busReply := by simp [replyTo, toLine]
    rw [hto]
    unfold busCommand at hq
    cases hr : s.busReply with
    | silent => exact .inl ⟨rfl, by simpa [hr] using hq.symm⟩
    | word r =>
      rw [hr] at hq
      cases hq
      refine .inr ⟨r, answer r, rfl, decoded r, ?_⟩
      split <;> simp [failedTrace, restTrace]
  | wait d restTrace =>
    rw [replyTo_waitInstr]
    obtain ⟨hr, rfl⟩ | ⟨r, hr, hf, hk⟩ := waitFor_cases hq
    · exact .inl ⟨hr, rfl⟩
    · exact .inr ⟨r, .ok, hr, decodeResponse_waitInstr d hf, by simp [restTrace _ _ hk]⟩

/-- Each of the five commands issues itself. -/
theorem exec_issues {c : Instr} (h : toBusLine c = true ∨ ∃ n, c = .delayUs n ∨ c = .delayMs n) :
    Issues s c (exec c s) := by
  obtain h | ⟨n, rfl | rfl⟩ := h
  · cases c with
    | driveLow => exact issues_driveLow fun _ => rfl
    | release => exact issues_release fun _ => rfl
    | sample => exact issues_sample fun _ _ => rfl
    | _ => cases h
  · exact issues_wait ⟨.us, n⟩ fun _ => rfl
  · exact issues_wait ⟨.ms, n⟩ fun _ => rfl

/-! What a routine goes on with after its command leaves the trace alone. -/

theorem afterResetPulse_trace (v : State) : (afterResetPulse v).trace = v.trace := by
  unfold afterResetPulse
  split <;> rfl

theorem presenceSampled_trace (b : Bool) (v : State) : (presenceSampled b v).trace = v.trace := by
  obtain ⟨-, e⟩ | ⟨-, -, e⟩ | ⟨-, -, e⟩ := presenceSampled_cases b v <;> rw [e] <;> rfl

theorem thresholdSampled_trace (b : Bool) (v : State) : (thresholdSampled b v).trace = v.trace := by
  obtain ⟨-, e⟩ | ⟨-, -, e⟩ | ⟨-, -, e⟩ := thresholdSampled_cases b v <;> rw [e] <;> rfl

theorem slotEnd_trace (v w : State) (h : slotEnd v = .next w) : w.trace = v.trace := by
  obtain ⟨-, rfl⟩ | ⟨-, h⟩ := slotEnd_cases h
  · rfl
  · obtain ⟨-, rfl⟩ | ⟨-, rfl⟩ := byteEnd_cases h <;> rfl

/-! Each routine issues the command of its position, or is refused where U16 or U11 says so. -/

theorem execReset_issues {c : Instr} (hp : s.phase = .reset) (hc : s.command = some c) : Issues s c (execReset s) := by
  unfold State.command at hc
  unfold execReset
  cases hk : s.step <;> rw [hp, hk] at hc <;> cases hc
  case s0 => exact issues_driveLow fun _ => rfl
  case s1 => exact issues_wait _ fun _ => rfl
  case s2 => exact issues_release afterResetPulse_trace

theorem execPresence_issues {c : Instr} (hp : s.phase = .presence) (hc : s.command = some c) :
    Issues s c (execPresence s) ∨ execPresence s = .refused .illegalConfiguration ∧ cfgLegal s.cfg = false := by
  unfold State.command at hc
  unfold execPresence
  cases hk : s.step <;> rw [hp, hk] at hc <;> cases hc
  case s0 => exact .inl (issues_wait _ fun _ => rfl)
  case s1 =>
    cases hl : presencePollsLegal s.cfg with
    | true => exact .inl (issues_sample presenceSampled_trace)
    | false => exact .inr ⟨rfl, by simp [cfgLegal, hl]⟩
  case s2 => exact .inl (issues_wait _ fun _ => rfl)

theorem execPostReset_issues {c : Instr} (hp : s.phase = .postReset) (hc : s.command = some c) :
    Issues s c (execPostReset s) := by
  unfold State.command at hc
  unfold execPostReset
  cases hk : s.step <;> rw [hp, hk] at hc <;> cases hc
  case s0 => exact issues_wait _ fun _ => rfl

theorem execBitReadL_issues {c : Instr} (hp : s.phase = .bitRead) (hc : s.command = some c) :
    Issues s c (execBitReadL s) ∨ execBitReadL s = .refused .stepNeverTaken ∧ s.step = .s5 := by
  unfold State.command at hc
  unfold execBitReadL
  cases hk : s.step <;> rw [hp, hk] at hc <;> cases hc
  case s0 => exact .inl (issues_driveLow fun _ => rfl)
  case s1 => exact .inl (issues_wait _ fun _ => rfl)
  case s2 => exact .inl (issues_release fun _ => rfl)
  case s3 => exact .inl (issues_wait _ fun _ => rfl)
  case s4 => exact .inl (issues_sample fun _ _ => rfl)
  case s5 => exact .inr ⟨rfl, rfl⟩
  case s6 => exact .inl (.wait _ slotEnd_trace)

theorem execBitReadT_issues {c : Instr} (hp : s.phase = .bitRead) (hc : s.command = some c) :
    Issues s c (execBitReadT s) ∨ execBitReadT s = .refused .illegalConfiguration ∧ cfgLegal s.cfg = false := by
  unfold State.command at hc
  unfold execBitReadT
  cases hk : s.step <;> rw [hp, hk] at hc <;> cases hc
  case s0 => exact .inl (issues_driveLow fun _ => rfl)
  case s1 => exact .inl (issues_wait _ fun _ => rfl)
  case s2 => exact .inl (issues_release fun _ => rfl)
  case s3 => exact .inl (issues_wait _ fun _ => rfl)
  case s4 =>
    cases hl : bitLimitsLegal s.cfg with
    | true => exact .inl (issues_sample thresholdSampled_trace)
    | false => exact .inr ⟨rfl, by simp [cfgLegal, hl]⟩
  case s5 => exact .inl (issues_wait _ fun _ => rfl)
  case s6 => exact .inl (.wait _ slotEnd_trace)

/-- The engine's turn at a position with a command issues that command; it is refused only under a `cfg` or at a STEP that is
not legal (10_state.md R21, 43_frame_checksum_read.md R166). -/
theorem engineTurn_issues {c : Instr} (hb : s.busy = true) (hc : s.command = some c) :
    Issues s c (engineTurn s) ∨ (∃ e, engineTurn s = .refused e) ∧
      (cfgLegal s.cfg = false ∨ stepInRange s.cfg.sampleMode s.phase s.step = false) := by
  unfold engineTurn
  rw [if_pos hb]
  cases hp : s.phase with
  | idle => simp [State.command, hp] at hc
  | reset => exact .inl (execReset_issues hp hc)
  | presence => exact (execPresence_issues hp hc).imp_right fun ⟨hr, hl⟩ => ⟨⟨_, hr⟩, .inl hl⟩
  | postReset => exact .inl (execPostReset_issues hp hc)
  | bitRead =>
    cases hm : s.cfg.sampleMode with
    | level => exact (execBitReadL_issues hp hc).imp_right fun ⟨hr, hk⟩ => ⟨⟨_, hr⟩, .inr (by rw [hk]; rfl)⟩
    | threshold => exact (execBitReadT_issues hp hc).imp_right fun ⟨hr, hl⟩ => ⟨⟨_, hr⟩, .inl hl⟩
  | checksum => simp [State.command, hp] at hc
  | decode => simp [State.command, hp] at hc

/-- Settles O13: what issues a command waits while it is unanswered: the command alone, and the engine at a legal position
that has it. -/
theorem anUnansweredCommandLeavesTheEngineWhereItIs : Obligations.AnUnansweredCommandLeavesTheEngineWhereItIs := by
  intro s c hcmd hr
  refine ⟨(exec_issues hcmd).eq_of_silent hr, fun hl hb hh hk hc => ?_⟩
  rw [step_of_no_host hh]
  obtain h | ⟨-, hbad⟩ := engineTurn_issues hb hc
  · exact h.eq_of_silent hr
  · simp [hl, hk] at hbad

/-- At a position without a command the engine's turn adds nothing to the trace. -/
theorem engineTurn_trace_of_no_command (hc : s.command = none) (h : engineTurn s = .next t) : t.trace = s.trace := by
  obtain h | ⟨c, a, hc', -⟩ := turn_trace (turn_of_engineTurn h)
  · exact h
  · simp [hc] at hc'

/-- The host's schedule is no part of what the engine issues or of what answers it. -/
theorem EngineMoves.same (h : EngineMoves s u) :
    u.busy = s.busy ∧ u.command = s.command ∧ u.trace = s.trace ∧ ∀ c, replyTo c u = replyTo c s := by
  obtain ⟨-, rfl⟩ | ⟨rest, -, rfl⟩ := h <;> exact ⟨rfl, rfl, rfl, fun _ => rfl⟩

/-- Settles O27: a step of the engine is its turn, which issues the command of its position. -/
theorem aStepIssuesExactlyTheCommandOfItsPosition : Obligations.AStepIssuesExactlyTheCommandOfItsPosition := by
  intro s u t hm hb h
  rw [step_of_engineMoves hm] at h
  obtain ⟨hbusy, hcommand, htrace, hreply⟩ := hm.same
  rw [← hbusy] at hb
  rw [← hcommand, ← htrace]
  refine ⟨fun hc => engineTurn_trace_of_no_command hc h, fun c hc => ?_⟩
  rw [← hreply]
  obtain hi | ⟨⟨e, he⟩, -⟩ := engineTurn_issues hb hc
  · exact hi.next_cases h
  · rw [he] at h
    cases h

end Sys2Proof.Machine
end

section
/-! Proofs of the family of 30_encoding.md: the decoder and the encoder (R72, R73, R77, R80, R81, R90). -/

namespace Sys2Proof.Machine

variable {s t : State}

/-! ### Decoding what was encoded -/

theorem decode_encode {i : Instr} (h : i.wellFormed = true) : decode (encode i) = .ok i := by
  cases i with
  | start v => exact if_pos h
  | delayUs n => simp [encode, decode, decodeCommand_cmdWord]
  | delayMs n => simp [encode, decode, decodeCommand_cmdWord]
  | _ => rfl

/-- Settles O2: each row of the tables by its own word, the delays for every operand, START for every word with bit 0 set. -/
theorem decodingAnEncodedInstructionGivesItBack : Obligations.DecodingAnEncodedInstructionGivesItBack :=
  fun _ => decode_encode

/-- Only a word to be written to CTRL can fail to be well-formed. -/
theorem wellFormed_of_encode_cw {i : Instr} {w : CmdWord} (h : encode i = .cw w) : i.wellFormed = true := by
  cases i with
  | start v => cases h
  | _ => rfl

/-- A command word has one meaning, and it is what the encoder writes for that (R72, R73). -/
theorem decodeCommand_eq_ok_iff {w : CmdWord} {i : Instr} : decodeCommand w = .ok i ↔ encode i = .cw w := by
  constructor
  · intro h
    rw [← cmdWord_eta w] at h ⊢
    generalize cmdOp w = op at h ⊢
    generalize cmdOperand w = n at h ⊢
    rw [decodeCommand_cmdWord] at h
    split_ifs at h <;> cases h <;> subst_vars <;> rfl
  · intro h
    have hd := decode_encode (wellFormed_of_encode_cw h)
    rwa [h] at hd

theorem decodeHostWord_eq_ok_iff {v : HostWord} {i : Instr} : decodeHostWord v = .ok i ↔ v[0] = true ∧ i = .start v := by
  unfold decodeHostWord
  cases v[0] <;> simp [eq_comm]

/-- The key the encoder writes for the routine of a key: the mode bit that R90 ignores is 0. -/
def tableKey (k : PhaseKey) : PhaseKey := if keyPhase k = 4 then k else 0#1 ++ keyPhase k

theorem encode_of_decodePhaseKey {k : PhaseKey} {i : Instr} (h : decodePhaseKey k = .ok i) :
    encode i = .phase (tableKey k) := by
  have keys : ∀ k, ∀ i ∈ (decodePhaseKey k).toOption, encode i = .phase (tableKey k) := by decide
  exact keys k i (by rw [h]; rfl)

theorem keyPhase_tableKey : ∀ k, keyPhase (tableKey k) = keyPhase k := by decide

/-- Settles O3: a command word and a CTRL word by their decoder's `↔`, a key by its table key. -/
theorem encodingADecodedWordGivesItBack : Obligations.EncodingADecodedWordGivesItBack := by
  refine ⟨fun w i => decodeCommand_eq_ok_iff.mp, fun v i h => ?_, fun k i h => ?_⟩
  · obtain ⟨-, rfl⟩ := decodeHostWord_eq_ok_iff.mp h
    rfl
  · exact ⟨tableKey k, encode_of_decodePhaseKey h, keyPhase_tableKey k, fun h4 => if_pos h4⟩

/-! ### Masks and matches -/

/-- The mask of a row without operand takes the whole word. -/
theorem decodeCommand_iff_wholeWord {i : Instr} {w c : CmdWord} (hi : encode i = .cw c) :
    decodeCommand w = .ok i ↔ w &&& 0xFFFFFFFFF#36 = c := by
  have hw : w &&& 0xFFFFFFFFF#36 = w := BitVec.and_allOnes
  rw [decodeCommand_eq_ok_iff, hi, hw, InstrWord.cw.injEq, eq_comm]

/-- The mask of a delay's row takes the opcode alone. -/
theorem opcode_mask_iff {op : BitVec 4} {w : CmdWord} : w &&& 0xF00000000#36 = cmdWord op 0 ↔ ∃ n, cmdWord op n = w := by
  constructor
  · intro h
    rw [← cmdWord_eta w, Laws.TableRow.cmdWord_masked] at h
    have hop : cmdOp w = op := by simpa using congrArg cmdOp h
    exact ⟨cmdOperand w, by rw [← hop, cmdWord_eta]⟩
  · rintro ⟨n, rfl⟩
    exact Laws.TableRow.cmdWord_masked op n

theorem decodeCommand_iff_opcode {op : BitVec 4} {f : BitVec 32 → Instr} {w : CmdWord}
    (hf : ∀ n, encode (f n) = .cw (cmdWord op n)) :
    (∃ n, decodeCommand w = .ok (f n)) ↔ w &&& 0xF00000000#36 = cmdWord op 0 := by
  simp only [opcode_mask_iff, decodeCommand_eq_ok_iff, hf, InstrWord.cw.injEq]

theorem and_one_eq_one_iff {v : HostWord} : v &&& 1#32 = 1#32 ↔ v[0] = true := by
  rw [BitVec.and_one_eq_setWidth_ofBool_getLsbD, BitVec.getLsbD_eq_getElem (by decide)]
  cases v[0] <;> decide

/-- Settles O4: command words by the field their row's mask takes, CTRL words by bit 0, the 32 keys one by one. -/
theorem decoderIsTheTablesMasksAndMatches : Obligations.DecoderIsTheTablesMasksAndMatches := by
  refine ⟨fun w => ⟨?_, ?_, ?_, ?_, ?_⟩, fun v => ?_, by decide⟩
  · exact decodeCommand_iff_wholeWord rfl
  · exact decodeCommand_iff_wholeWord rfl
  · exact decodeCommand_iff_wholeWord rfl
  · exact decodeCommand_iff_opcode (op := 4) (f := .delayUs) fun _ => rfl
  · exact decodeCommand_iff_opcode (op := 5) (f := .delayMs) fun _ => rfl
  · simp [decodeHostWord_eq_ok_iff, and_one_eq_one_iff]

/-- Settles O1: the words are the tables' own. -/
theorem tableWordsDecodeToTheirRows : Obligations.TableWordsDecodeToTheirRows := by
  unfold Obligations.TableWordsDecodeToTheirRows
  decide

/-! ### Reserved command words -/

theorem decodeCommand_reserved {w : CmdWord} (h : (cmdOp w).toNat = 0 ∨ 6 ≤ (cmdOp w).toNat) :
    decodeCommand w = .error (.reservedOpcode (cmdOp w)) := by
  unfold decodeCommand
  split
  any_goals omega
  rfl

theorem decodeCommand_operandNotZero {w : CmdWord} (h1 : 1 ≤ (cmdOp w).toNat) (h3 : (cmdOp w).toNat ≤ 3)
    (hn : cmdOperand w ≠ 0) : decodeCommand w = .error (.operandNotZero (cmdOp w) (cmdOperand w)) := by
  have plain : ∀ i, plainCommand w i = .error (.operandNotZero (cmdOp w) (cmdOperand w)) := fun i => if_neg hn
  unfold decodeCommand
  obtain h | h | h : (cmdOp w).toNat = 1 ∨ (cmdOp w).toNat = 2 ∨ (cmdOp w).toNat = 3 := by omega
  all_goals rw [h]; exact plain _

/-- A word that does not decode has no line in a trace (R80, R86). -/
theorem traceLine_of_error {w : CmdWord} {e : DecodeError} (h : decodeCommand w = .error e) (a : Answer) :
    traceLine ⟨w, a⟩ = none := by
  simp [traceLine, commandText, h]

theorem portWord_of_encode {c : Instr} {w : CmdWord} (h : encode c = .cw w) : portWord c = w := by
  simp [portWord, h]

theorem encode_waitInstr (d : Duration) : ∃ w, encode (waitInstr d) = .cw w := by
  unfold waitInstr
  cases d.unit <;> exact ⟨_, rfl⟩

/-- What the engine issues is a command (43_frame_checksum_read.md R166). -/
theorem encode_of_command {c : Instr} (h : s.command = some c) : ∃ w, encode c = .cw w := by
  unfold State.command at h
  split at h <;> cases h
  any_goals exact encode_waitInstr _
  all_goals exact ⟨_, rfl⟩

/-- The word it puts on the port is no reserved one. -/
theorem decodeCommand_portWord_of_command {c : Instr} (h : s.command = some c) : decodeCommand (portWord c) = .ok c := by
  obtain ⟨w, hw⟩ := encode_of_command h
  rw [portWord_of_encode hw]
  exact decodeCommand_eq_ok_iff.mpr hw

/-- What is new in a trace after a step is a command that the decoder knows. -/
theorem step_trace_decodes (h : step s = .next t) :
    ∀ e ∈ t.trace, e ∈ s.trace ∨ ∃ i, decodeCommand e.word = .ok i := by
  intro e he
  obtain ⟨u, hu, ht⟩ := step_cases h
  have htrace : u.trace = s.trace := by
    obtain rfl | ⟨_, rest, -, rfl⟩ := hu <;> rfl
  rw [← htrace]
  obtain hturn | ⟨-, rfl⟩ | ⟨r, rfl⟩ | rfl | rfl := ht
  · obtain hsame | ⟨c, a, hc, hnew⟩ := turn_trace (turn_of_engineTurn hturn)
    · exact .inl (hsame ▸ he)
    · rw [hnew, List.mem_append, List.mem_singleton] at he
      obtain he | rfl := he
      · exact .inl he
      · exact .inr ⟨c, decodeCommand_portWord_of_command hc⟩
  · cases he
  · exact .inl he
  · exact .inl he
  · exact .inl (State.hardReset_trace u ▸ he)

/-- Settles O5: the two kinds of reserved words by the decoder's branches, and a step's new entry by the engine's table. -/
theorem reservedCommandWordsAreRejectedAndNeverIssued : Obligations.ReservedCommandWordsAreRejectedAndNeverIssued := by
  refine ⟨fun w h => ?_, fun w h1 h3 hn => ?_, fun n => ⟨?_, ?_⟩, fun s t => step_trace_decodes⟩
  · exact ⟨decodeCommand_reserved h, traceLine_of_error (decodeCommand_reserved h)⟩
  · have hd := decodeCommand_operandNotZero h1 h3 hn
    exact ⟨hd, traceLine_of_error hd⟩
  · exact decodeCommand_eq_ok_iff.mpr rfl
  · exact decodeCommand_eq_ok_iff.mpr rfl

end Sys2Proof.Machine
end

section
/-! Proofs of the family of 30_encoding.md: responses (R75, R82), and where an instruction is placed (R90, log 13). -/

namespace Sys2Proof.Machine

variable {s t : State}

/-! ### The form of a routine at a position with a command -/

/-- The state before an environment that will answer what the two lists say. -/
def State.answering (s : State) (bus delay : List Reply) : State := { s with bus := bus, delay := delay }

@[simp] theorem State.answering_phase (b d : List Reply) : (s.answering b d).phase = s.phase := rfl
@[simp] theorem State.answering_step (b d : List Reply) : (s.answering b d).step = s.step := rfl
@[simp] theorem State.answering_busy (b d : List Reply) : (s.answering b d).busy = s.busy := rfl
@[simp] theorem State.answering_cfg (b d : List Reply) : (s.answering b d).cfg = s.cfg := rfl

/-- What a routine is at the position of `s`, whatever the environment will answer: the port operation of one command, with
a continuation that is the position's own; or a refusal, where SAMPLE's limits or the STEP are not legal (U16, U11). -/
inductive PortForm (s : State) (routine : State → Result) : Instr → Prop
  | driveLow (k : State → State)
      (eq : ∀ b d, routine (s.answering b d) = Machine.driveLow (s.answering b d) k) : PortForm s routine .driveLow
  | release (k : State → State)
      (eq : ∀ b d, routine (s.answering b d) = Machine.release (s.answering b d) k) : PortForm s routine .release
  | sample (k : Bool → State → State)
      (eq : ∀ b d, routine (s.answering b d) = Machine.sample (s.answering b d) k) : PortForm s routine .sample
  | wait (w : Duration) (k : State → Result)
      (eq : ∀ b d, routine (s.answering b d) = waitFor w (s.answering b d) k) : PortForm s routine (waitInstr w)
  | refused {c : Instr} (e : Refusal) (eq : ∀ b d, routine (s.answering b d) = .refused e)
      (why : toBusLine c = true ∨ stepInRange s.cfg.sampleMode s.phase s.step = false) : PortForm s routine c

theorem execReset_portForm {c : Instr} (hp : s.phase = .reset) (hc : s.command = some c) : PortForm s execReset c := by
  unfold State.command at hc
  cases hk : s.step <;> rw [hp, hk] at hc <;> cases hc
  case s0 => exact .driveLow _ fun b d => by rw [execReset, State.answering_step, hk]
  case s1 => exact .wait _ _ fun b d => by rw [execReset, State.answering_step, hk, State.answering_cfg]
  case s2 => exact .release _ fun b d => by rw [execReset, State.answering_step, hk]

theorem execPresence_portForm {c : Instr} (hp : s.phase = .presence) (hc : s.command = some c) :
    PortForm s execPresence c := by
  unfold State.command at hc
  cases hk : s.step <;> rw [hp, hk] at hc <;> cases hc
  case s0 => exact .wait _ _ fun b d => by rw [execPresence, State.answering_step, hk, State.answering_cfg]
  case s1 =>
    cases hl : presencePollsLegal s.cfg with
    | true => exact .sample presenceSampled fun b d => by simp [execPresence, hk, hl]
    | false => exact .refused .illegalConfiguration (fun b d => by simp [execPresence, hk, hl]) (.inl rfl)
  case s2 => exact .wait _ _ fun b d => by rw [execPresence, State.answering_step, hk, State.answering_cfg]

theorem execPostReset_portForm {c : Instr} (hp : s.phase = .postReset) (hc : s.command = some c) :
    PortForm s execPostReset c := by
  unfold State.command at hc
  cases hk : s.step <;> rw [hp, hk] at hc <;> cases hc
  case s0 => exact .wait _ _ fun b d => by rw [execPostReset, State.answering_step, hk, State.answering_cfg]

theorem execBitReadL_portForm {c : Instr} (hp : s.phase = .bitRead) (hm : s.cfg.sampleMode = .level)
    (hc : s.command = some c) : PortForm s execBitReadL c := by
  unfold State.command at hc
  cases hk : s.step <;> rw [hp, hk] at hc <;> cases hc
  case s0 => exact .driveLow _ fun b d => by rw [execBitReadL, State.answering_step, hk, slotOpen]
  case s1 => exact .wait _ _ fun b d => by rw [execBitReadL, State.answering_step, hk, slotHold, State.answering_cfg]
  case s2 => exact .release _ fun b d => by rw [execBitReadL, State.answering_step, hk, slotRelease]
  case s3 => exact .wait _ _ fun b d => by rw [execBitReadL, State.answering_step, hk, State.answering_cfg]
  case s4 => exact .sample _ fun b d => by rw [execBitReadL, State.answering_step, hk]
  case s5 =>
    refine .refused .stepNeverTaken (fun b d => ?_) (.inr ?_)
    · rw [execBitReadL, State.answering_step, hk]
    · rw [hp, hk, hm]
      rfl
  case s6 => exact .wait _ _ fun b d => by rw [execBitReadL, State.answering_step, hk, slotRecover, State.answering_cfg]

theorem execBitReadT_portForm {c : Instr} (hp : s.phase = .bitRead) (hc : s.command = some c) :
    PortForm s execBitReadT c := by
  unfold State.command at hc
  cases hk : s.step <;> rw [hp, hk] at hc <;> cases hc
  case s0 => exact .driveLow _ fun b d => by rw [execBitReadT, State.answering_step, hk, slotOpen]
  case s1 => exact .wait _ _ fun b d => by rw [execBitReadT, State.answering_step, hk, slotHold, State.answering_cfg]
  case s2 => exact .release _ fun b d => by rw [execBitReadT, State.answering_step, hk, slotRelease]
  case s3 => exact .wait _ _ fun b d => by rw [execBitReadT, State.answering_step, hk, State.answering_cfg]
  case s4 =>
    cases hl : bitLimitsLegal s.cfg with
    | true => exact .sample thresholdSampled fun b d => by simp [execBitReadT, hk, hl]
    | false => exact .refused .illegalConfiguration (fun b d => by simp [execBitReadT, hk, hl]) (.inl rfl)
  case s5 => exact .wait _ _ fun b d => by rw [execBitReadT, State.answering_step, hk, State.answering_cfg]
  case s6 => exact .wait _ _ fun b d => by rw [execBitReadT, State.answering_step, hk, slotRecover, State.answering_cfg]

/-- A form is of the routine's answers at the position, and of nothing else of it. -/
theorem PortForm.congr {f g : State → Result} {c : Instr} (h : PortForm s f c)
    (e : ∀ b d, g (s.answering b d) = f (s.answering b d)) : PortForm s g c := by
  cases h with
  | driveLow k eq => exact .driveLow k fun b d => (e b d).trans (eq b d)
  | release k eq => exact .release k fun b d => (e b d).trans (eq b d)
  | sample k eq => exact .sample k fun b d => (e b d).trans (eq b d)
  | wait w k eq => exact .wait w k fun b d => (e b d).trans (eq b d)
  | refused r eq why => exact .refused r (fun b d => (e b d).trans (eq b d)) why

/-- The engine's turn at a position with a command (43_frame_checksum_read.md R166). -/
theorem engineTurn_portForm {c : Instr} (hb : s.busy = true) (hc : s.command = some c) : PortForm s engineTurn c := by
  cases hp : s.phase with
  | idle => simp [State.command, hp] at hc
  | reset => exact (execReset_portForm hp hc).congr fun b d => by simp [engineTurn, hb, hp]
  | presence => exact (execPresence_portForm hp hc).congr fun b d => by simp [engineTurn, hb, hp]
  | postReset => exact (execPostReset_portForm hp hc).congr fun b d => by simp [engineTurn, hb, hp]
  | bitRead =>
    cases hm : s.cfg.sampleMode with
    | level => exact (execBitReadL_portForm hp hm hc).congr fun b d => by simp [engineTurn, hb, hp, hm]
    | threshold => exact (execBitReadT_portForm hp hc).congr fun b d => by simp [engineTurn, hb, hp, hm]
  | checksum => simp [State.command, hp] at hc
  | decode => simp [State.command, hp] at hc

/-- So is a step when nothing is scheduled by the host. -/
theorem step_portForm {c : Instr} (hb : s.busy = true) (hh : s.host = []) (hc : s.command = some c) :
    PortForm s step c :=
  (engineTurn_portForm hb hc).congr fun _ _ => step_of_no_host hh

/-! ### What is read of a response -/

theorem lineAnswer_reads {r r' : RspWord} (h : lineAnswer r = lineAnswer r') :
    rspFail r = rspFail r' ∧ (rspFail r' = true → rspErr r = rspErr r') := by
  unfold lineAnswer at h
  cases hf : rspFail r <;> cases hf' : rspFail r' <;> simp_all

theorem sampleAnswer_reads {r r' : RspWord} (h : sampleAnswer r = sampleAnswer r') :
    rspFail r = rspFail r' ∧ (rspFail r' = true → rspErr r = rspErr r') ∧
      (rspFail r' = false → rspLevel r = rspLevel r') := by
  unfold sampleAnswer at h
  cases hf : rspFail r <;> cases hf' : rspFail r' <;> simp_all

theorem busCommand_of_word {i : Instr} {answer : RspWord → Answer} {failed : State → State}
    {k : RspWord → State → State} {r : RspWord} (hr : s.busReply = .word r) :
    busCommand i answer s failed k =
      .next (if rspFail r then (failed (s.dropBus.record i (answer r))).raise (.busFault (rspErr r))
        else k r (s.dropBus.record i (answer r))) := by
  rw [busCommand, hr]

theorem waitFor_of_word {w : Duration} {k : State → Result} {r : RspWord} (hr : s.delayReply = .word r) :
    waitFor w s k = if rspFail r then .refused .delayFailed else k (s.dropDelay.record (waitInstr w) .ok) := by
  rw [waitFor, hr]

@[simp] theorem toBusLine_waitInstr (w : Duration) : toBusLine (waitInstr w) = false := by
  unfold waitInstr
  cases w.unit <;> rfl

/-- Of a response to a delay only FAIL is read. -/
theorem decodeResponse_waitInstr_eq (w : Duration) (r : RspWord) :
    decodeResponse (waitInstr w) r = if rspFail r then none else some .ok := by
  unfold waitInstr
  cases w.unit <;> rfl

/-- A command to the Bus Line depends on its response through FAIL, through ERR if that is 1, and through what the routine
goes on with if it is 0. -/
theorem busCommand_congr {i : Instr} {answer : RspWord → Answer} {failed : State → State} {k : RspWord → State → State}
    {r r' : RspWord} {b d : List Reply} (ha : answer r = answer r') (hf : rspFail r = rspFail r')
    (he : rspFail r' = true → rspErr r = rspErr r') (hk : rspFail r' = false → k r = k r') :
    busCommand i answer (s.answering (.word r :: b) d) failed k =
      busCommand i answer (s.answering (.word r' :: b) d) failed k := by
  have hdrop : ∀ r, (s.answering (.word r :: b) d).dropBus = s.answering b d := fun _ => rfl
  rw [busCommand_of_word (r := r) rfl, busCommand_of_word (r := r') rfl, hdrop, hdrop, ha, hf]
  cases hf' : rspFail r' with
  | true => simp [he hf']
  | false => simp [hk hf']

/-- DRIVE_LOW and RELEASE go on without their response. -/
theorem lineCommand_congr {i : Instr} {failed k : State → State} {r r' : RspWord} {b d : List Reply}
    (ha : lineAnswer r = lineAnswer r') :
    busCommand i lineAnswer (s.answering (.word r :: b) d) failed (fun _ => k) =
      busCommand i lineAnswer (s.answering (.word r' :: b) d) failed (fun _ => k) :=
  have ⟨hf, he⟩ := lineAnswer_reads ha
  busCommand_congr ha hf he fun _ => rfl

/-- What the engine does with the Bus Line's answer depends on the answer's reading alone (R75). -/
theorem PortForm.line_congr {f : State → Result} {c : Instr} (h : PortForm s f c) (hc : toBusLine c = true)
    {r r' : RspWord} (hr : decodeResponse c r = decodeResponse c r') (b d : List Reply) :
    f (s.answering (.word r :: b) d) = f (s.answering (.word r' :: b) d) := by
  cases h with
  | driveLow k eq =>
    rw [eq, eq]
    exact lineCommand_congr (Option.some.inj hr)
  | release k eq =>
    rw [eq, eq]
    exact lineCommand_congr (Option.some.inj hr)
  | sample k eq =>
    have ha : sampleAnswer r = sampleAnswer r' := Option.some.inj hr
    obtain ⟨hf, he, hl⟩ := sampleAnswer_reads ha
    rw [eq, eq]
    exact busCommand_congr ha hf he fun h0 => by rw [hl h0]
  | wait w k eq => simp at hc
  | refused e eq why => rw [eq, eq]

/-- And so with the Delay Provider's. -/
theorem PortForm.delay_congr {f : State → Result} {c : Instr} (h : PortForm s f c) (hc : toBusLine c = false)
    {r r' : RspWord} (hr : decodeResponse c r = decodeResponse c r') (b d : List Reply) :
    f (s.answering b (.word r :: d)) = f (s.answering b (.word r' :: d)) := by
  cases h with
  | wait w k eq =>
    have hf : rspFail r = rspFail r' := by
      rw [decodeResponse_waitInstr_eq, decodeResponse_waitInstr_eq] at hr
      cases hr' : rspFail r' <;> simpa [hr'] using hr
    rw [eq, eq, waitFor_of_word (r := r) rfl, waitFor_of_word (r := r') rfl, hf]
    rfl
  | refused e eq why => rw [eq, eq]
  | _ => cases hc

/-- The conforming word of a failure. -/
theorem rspFail_encodeResponse_fail (e : Byte) : rspFail (encodeResponse (.fail e)) = true :=
  (BitVec.getElem_append (x := 0b10#2) (y := e) (by decide)).trans rfl

theorem rspErr_encodeResponse_fail (e : Byte) : rspErr (encodeResponse (.fail e)) = e :=
  BitVec.extractLsb'_append_eq_right

theorem encodeResponse_fail_eq_add (e : Byte) : encodeResponse (.fail e) = 0x200#10 + e.zeroExtend 10 := by
  revert e
  decide

/-- Settles O6: the reading by the decoder's branches; the step by the form of the engine's turn at the position. -/
theorem responsesAreReadAndIgnoredFieldsDoNotMatter : Obligations.ResponsesAreReadAndIgnoredFieldsDoNotMatter := by
  refine ⟨fun r => ⟨rfl, rfl, rfl, fun n h => ⟨?_, ?_⟩⟩, fun s c r r' rest hb hh hc hr => ⟨fun hl => ?_, fun hw => ?_⟩,
    rfl, rfl, rfl, fun e => ⟨encodeResponse_fail_eq_add e, ?_⟩⟩
  · exact decodeResponse_waitInstr ⟨.us, n⟩ h
  · exact decodeResponse_waitInstr ⟨.ms, n⟩ h
  · exact (step_portForm hb hh hc).line_congr hl hr rest s.delay
  · exact (step_portForm hb hh hc).delay_congr hw hr s.bus rest
  · simp [decodeResponse, rspFail_encodeResponse_fail, rspErr_encodeResponse_fail]

/-! ### A failed delay -/

theorem waitFor_of_fail {w : Duration} {k : State → Result} {r : RspWord} (hr : s.delayReply = .word r)
    (hf : rspFail r = true) : waitFor w s k = .refused .delayFailed := by
  rw [waitFor_of_word hr, if_pos hf]

/-- At a legal position that has a wait, a FAIL response is refused. -/
theorem PortForm.refused_of_fail {f : State → Result} {c : Instr} (h : PortForm s f c) (hw : toBusLine c = false)
    (hk : stepInRange s.cfg.sampleMode s.phase s.step = true) {r : RspWord} (hr : s.delayReply = .word r)
    (hf : rspFail r = true) : f s = .refused .delayFailed := by
  cases h with
  | wait w k eq => exact (eq s.bus s.delay).trans (waitFor_of_fail hr hf)
  | refused e eq why => simp [hw, hk] at why
  | _ => cases hw

/-- Settles O7: both delays are waits, and so is the engine's turn where its command is a delay. -/
theorem failResponseToADelayIsRefused : Obligations.FailResponseToADelayIsRefused := by
  refine fun s r hr hf => ⟨fun n => ⟨waitFor_of_fail hr hf, waitFor_of_fail hr hf⟩, fun c hb hh hk hc hw => ?_⟩
  exact (step_portForm hb hh hc).refused_of_fail hw hk hr hf

/-! ### Placing an instruction -/

theorem tableWord_phase (k : PhaseKey) : tableWord 8 k.toNat = some (.phase k) := by
  simp [tableWord, k.isLt]

theorem tableWord_host (v : HostWord) : tableWord 32 v.toNat = some (.host v) := by
  simp [tableWord, v.isLt]

theorem tableWord_cw (w : CmdWord) : tableWord 40 w.toNat = some (.cw w) := by
  simp [tableWord, w.isLt]

/-- A key that decodes names a phase of the engine by its code (10_state.md R21). -/
theorem routinePhase_of_decodePhaseKey {k : PhaseKey} {i : Instr} (h : decodePhaseKey k = .ok i) :
    ∃ p, routinePhase i = some p ∧ p ≠ .idle ∧ p.code = keyPhase k := by
  have keys : ∀ k, ∀ i ∈ (decodePhaseKey k).toOption, ∃ p ∈ routinePhase i, p ≠ .idle ∧ p.code = keyPhase k := by
    decide
  exact keys k i (by rw [h]; rfl)

/-- SEQ is placed where the sequencer's key is the one given (R90). -/
theorem sequencerKey_placeRoutine {k : PhaseKey} {p : Phase} (h : p.code = keyPhase k) :
    sequencerKey (placeRoutine s k p) = k := by
  have fields : ∀ k : PhaseKey, (if keyMode k then 1#1 else 0#1) ++ keyPhase k = k := by decide
  have hk := fields k
  simp only [sequencerKey, placeRoutine, placeAt, h]
  cases hm : keyMode k <;> simpa [hm] using hk

/-- Where a command is placed, the engine issues it, on its own turn. -/
theorem placeCommand_command {i : Instr} {w : CmdWord} (h : encode i = .cw w) :
    (placeCommand s i).command = some i ∧ (placeCommand s i).busy = true ∧ (placeCommand s i).trace = s.trace ∧
      replyTo i (placeCommand s i) = replyTo i s ∧
      EngineMoves (placeCommand s i) { placeCommand s i with host := s.host } := by
  cases i with
  | driveLow => exact ⟨rfl, rfl, rfl, rfl, .inr ⟨_, rfl, rfl⟩⟩
  | release => exact ⟨rfl, rfl, rfl, rfl, .inr ⟨_, rfl, rfl⟩⟩
  | sample => exact ⟨rfl, rfl, rfl, rfl, .inr ⟨_, rfl, rfl⟩⟩
  | delayUs n => exact ⟨rfl, rfl, rfl, rfl, .inr ⟨_, rfl, rfl⟩⟩
  | delayMs n => exact ⟨rfl, rfl, rfl, rfl, .inr ⟨_, rfl, rfl⟩⟩
  | _ => cases h

theorem withFetchWord_phase {k : PhaseKey} {i : Instr} {p : Phase} (h : decodePhaseKey k = .ok i)
    (hp : routinePhase i = some p) : s.withFetchWord 8 k.toNat = placeRoutine s k p := by
  simp [State.withFetchWord, tableWord_phase, placeWord, h, hp]

theorem withFetchWord_host (v : HostWord) :
    s.withFetchWord 32 v.toNat = { s with host := .store s.cfg.oweBase 4 v :: s.host } := by
  simp [State.withFetchWord, tableWord_host, placeWord]

theorem withFetchWord_cw {w : CmdWord} {i : Instr} (h : decodeCommand w = .ok i) :
    s.withFetchWord 40 w.toNat = placeCommand s i := by
  simp [State.withFetchWord, tableWord_cw, placeWord, h]

/-- Settles O30: a key by the position its key is fetched at, START by the host's write, a command by the port (O27). -/
theorem aPlacedInstructionIsTheNextOneRun : Obligations.APlacedInstructionIsTheNextOneRun := by
  refine ⟨fun s k i h => ?_, fun s v hv => ?_, fun s w i t h hstep hr => ?_⟩
  · obtain ⟨p, hp, hidle, hcode⟩ := routinePhase_of_decodePhaseKey h
    rw [withFetchWord_phase h hp]
    refine step_eq_exec (.inr ⟨s.host, rfl, rfl⟩) rfl hidle ?_
    rw [sequencerKey_placeRoutine hcode]
    exact h
  · rw [withFetchWord_host]
    exact step_of_store_ctrl hv rfl
  · have hw := decodeCommand_eq_ok_iff.mp h
    rw [withFetchWord_cw h] at hstep
    obtain ⟨hcommand, hbusy, htrace, hreply, hmoves⟩ := placeCommand_command (s := s) hw
    obtain ⟨-, hissues⟩ := aStepIssuesExactlyTheCommandOfItsPosition _ _ t hmoves hbusy hstep
    obtain ⟨hsilent, -⟩ | ⟨_, a, -, -, hnew⟩ := hissues i hcommand
    · exact absurd (hreply.symm.trans hsilent) hr
    · exact ⟨a, by rw [hnew, htrace, portWord_of_encode hw]⟩

end Sys2Proof.Machine
end

section
/-! Proofs of the family of 40_capability_ops.md: what each command does with an answer (R100 to R108), that line commands
fit the line (R233), and that nothing is refused in a legal run (R107). -/

namespace Sys2Proof.Machine

variable {s t : State} {r : RspWord}

/-! ### A command and its answer -/

/-- A recorded answer of the Bus Line, field by field. -/
theorem lineTold_eq (s : State) (c : Instr) (a : Answer) :
    s.lineTold c a = { s.dropBus with trace := s.trace ++ [⟨portWord c, a⟩] } := by
  rw [State.lineTold, State.record, State.dropBus_trace]

theorem driveLow_of_ok {k : State → State} (h : LineSays s r) :
    driveLow s k = .next (k ((s.lineTold .driveLow .ok).setLineDir .low)) := by
  obtain ⟨hr, hf⟩ := h
  simp [driveLow, busCommand_of_word hr, hf, lineAnswer, lineAfterDriveLow]

theorem driveLow_of_fail {k : State → State} (h : LineFails s r) :
    driveLow s k =
      .next (((s.lineTold .driveLow (.fail (rspErr r))).setLineDir .unknown).raise (.busFault (rspErr r))) := by
  obtain ⟨hr, hf⟩ := h
  simp [driveLow, busCommand_of_word hr, hf, lineAnswer, lineAfterDriveLow]

theorem release_of_ok {k : State → State} (h : LineSays s r) :
    release s k = .next (k ((s.lineTold .release .ok).setLineDir .released)) := by
  obtain ⟨hr, hf⟩ := h
  simp [release, busCommand_of_word hr, hf, lineAnswer, lineAfterRelease]

theorem release_of_fail {k : State → State} (h : LineFails s r) :
    release s k =
      .next (((s.lineTold .release (.fail (rspErr r))).setLineDir .unknown).raise (.busFault (rspErr r))) := by
  obtain ⟨hr, hf⟩ := h
  simp [release, busCommand_of_word hr, hf, lineAnswer, lineAfterRelease]

theorem sample_of_level {k : Bool → State → State} (h : LineSays s r) :
    sample s k = .next (k (rspLevel r) (s.lineTold .sample (.level (rspLevel r)))) := by
  obtain ⟨hr, hf⟩ := h
  simp [sample, busCommand_of_word hr, hf, sampleAnswer]

theorem sample_of_fail {k : Bool → State → State} (h : LineFails s r) :
    sample s k = .next ((s.lineTold .sample (.fail (rspErr r))).raise (.busFault (rspErr r))) := by
  obtain ⟨hr, hf⟩ := h
  simp [sample, busCommand_of_word hr, hf, sampleAnswer]

theorem waitFor_of_ok {d : Duration} {k : State → Result} (h : WaitEnds s r) : waitFor d s k = k (s.waited d) := by
  obtain ⟨hr, hf⟩ := h
  simp [waitFor_of_word hr, hf]

/-- Settles O8: DRIVE_LOW's two answers, with what each one writes. -/
theorem driveLowResult : Obligations.DriveLowResult := by
  refine fun s r hr => ⟨fun hf => ?_, fun hf => ?_⟩
  · rw [exec, execDriveLow, driveLow_of_ok ⟨hr, hf⟩, lineTold_eq]
    rfl
  · rw [exec, execDriveLow, driveLow_of_fail ⟨hr, hf⟩, lineTold_eq]
    rfl

/-- Settles O9: RELEASE's two answers, with what each one writes. -/
theorem releaseResult : Obligations.ReleaseResult := by
  refine fun s r hr => ⟨fun hf => ?_, fun hf => ?_⟩
  · rw [exec, execRelease, release_of_ok ⟨hr, hf⟩, lineTold_eq]
    rfl
  · rw [exec, execRelease, release_of_fail ⟨hr, hf⟩, lineTold_eq]
    rfl

/-- Settles O10: SAMPLE's two answers, neither of which writes LINE_DIR. -/
theorem sampleResult : Obligations.SampleResult := by
  refine fun s r hr => ⟨fun hf => ?_, fun hf => ?_⟩
  · rw [exec, execSample, sample_of_level ⟨hr, hf⟩, lineTold_eq]
    rfl
  · rw [exec, execSample, sample_of_fail ⟨hr, hf⟩, lineTold_eq]
    rfl

/-- Settles O11: both delays are waits that go on with the state in which the wait is over. -/
theorem delaysChangeNoEngineState : Obligations.DelaysChangeNoEngineState :=
  fun _ _ _ hr hf => ⟨waitFor_of_ok ⟨hr, hf⟩, waitFor_of_ok ⟨hr, hf⟩⟩

/-- Settles O12, by whether State lists an answer or not. -/
theorem takingAnAnswerChangesNothingElse : Obligations.TakingAnAnswerChangesNothingElse := by
  refine fun s => ⟨fun a rest h => ⟨?_, ?_⟩, fun h => ⟨?_, ?_⟩, fun a rest h => ?_, fun h => ?_⟩
  · rw [State.busReply, h]
  · rw [State.dropBus, h]
  · rw [State.busReply, h]
  · rw [State.dropBus, h]
  · rw [State.delayReply, h]
  · rw [State.delayReply, h]

/-! ### Line commands fit the line -/

/-- Where a command to the Bus Line is issued (43_frame_checksum_read.md R166). -/
theorem position_of_lineCommand {c : Instr} (h : s.command = some c) (hc : toBusLine c = true) :
    (c = .driveLow ∧ (s.phase = .reset ∨ s.phase = .bitRead) ∧ s.step = .s0) ∨
    (c = .release ∧ (s.phase = .reset ∨ s.phase = .bitRead) ∧ s.step = .s2) ∨
    (c = .sample ∧ ((s.phase = .presence ∧ s.step = .s1) ∨ (s.phase = .bitRead ∧ s.step = .s4))) := by
  unfold State.command at h
  split at h <;> cases h
  all_goals simp_all

theorem position_of_driveLow (h : s.command = some .driveLow) :
    (s.phase = .reset ∨ s.phase = .bitRead) ∧ s.step = .s0 := by
  simpa using position_of_lineCommand h rfl

theorem LineInv.not_low_of_driveLow (hi : LineInv s) (h : s.command = some .driveLow) : s.lineDir ≠ .low := by
  obtain ⟨hp | hp, hk⟩ := position_of_driveLow h <;> simp_all [LineInv]

theorem LineInv.released_of_sample (hi : LineInv s) (h : s.command = some .sample) : s.lineDir = .released := by
  obtain ⟨hp, hk⟩ | ⟨hp, hk⟩ : (s.phase = .presence ∧ s.step = .s1) ∨ (s.phase = .bitRead ∧ s.step = .s4) := by
    simpa using position_of_lineCommand h rfl
  all_goals simpa [LineInv, hp, hk] using hi

theorem LineInv.low_of_release (hi : LineInv s) (h : s.command = some .release) : s.lineDir = .low := by
  obtain ⟨hp | hp, hk⟩ : (s.phase = .reset ∨ s.phase = .bitRead) ∧ s.step = .s2 := by
    simpa using position_of_lineCommand h rfl
  all_goals simpa [LineInv, hp, hk] using hi

/-- The line is low between a DRIVE_LOW and its RELEASE only. -/
theorem LineInv.position_of_low (hi : LineInv s) (hk : stepInRange s.cfg.sampleMode s.phase s.step = true)
    (hl : s.lineDir = .low) : (s.phase = .reset ∨ s.phase = .bitRead) ∧ (s.step = .s1 ∨ s.step = .s2) := by
  unfold LineInv at hi
  split at hi
  case h_3 hp hne =>
    have h0 : s.step ≠ .s0 := hne
    simpa [stepInRange, hp, h0] using hk
  all_goals simp_all

/-- There the engine waits or releases. -/
theorem LineInv.command_of_low (hi : LineInv s) (hk : stepInRange s.cfg.sampleMode s.phase s.step = true)
    (hl : s.lineDir = .low) : s.command = some .release ∨ ∃ d, s.command = some (waitInstr d) := by
  obtain ⟨hp | hp, hs | hs⟩ := hi.position_of_low hk hl
  · exact .inr ⟨s.cfg.tResetLow, by simp [State.command, hp, hs]⟩
  · exact .inl (by simp [State.command, hp, hs])
  · exact .inr ⟨s.cfg.tSlotLow, by simp [State.command, hp, hs]⟩
  · exact .inl (by simp [State.command, hp, hs])

/-- Where the engine issues DRIVE_LOW, it goes on with S1 of the same phase. -/
theorem engineTurn_of_driveLow (hb : s.busy = true) (h : s.command = some .driveLow) :
    engineTurn s = driveLow s (fun t => t.goto s.phase .s1) := by
  obtain ⟨hp | hp, hk⟩ := position_of_driveLow h
  · simp [engineTurn, hb, hp, execReset, hk]
  · cases hm : s.cfg.sampleMode <;> simp [engineTurn, hb, hp, hm, execBitReadL, execBitReadT, slotOpen, hk]

/-- A turn after which DRIVE_LOW has made the line low stands before a wait. -/
theorem engineTurn_driveLow_then_wait (hb : s.busy = true) (h : s.command = some .driveLow) (hl : s.lineDir ≠ .low)
    (ht : engineTurn s = .next t) (hlow : t.lineDir = .low) : ∃ d, t.command = some (waitInstr d) := by
  rw [engineTurn_of_driveLow hb h] at ht
  obtain ⟨-, rfl⟩ | ⟨r, -, -, rfl⟩ | ⟨r, -, -, rfl⟩ := driveLow_cases ht
  · exact absurd hlow hl
  · cases hlow
  · obtain ⟨hp | hp, -⟩ := position_of_driveLow h <;> exact ⟨_, by simp [State.command, hp]; rfl⟩

/-- So of a step: no other event of the host makes the line low. -/
theorem step_driveLow_then_wait (hi : LineInv s) (hb : s.busy = true) (h : s.command = some .driveLow)
    (hs : step s = .next t) (hlow : t.lineDir = .low) : ∃ d, t.command = some (waitInstr d) := by
  have hl := hi.not_low_of_driveLow h
  obtain ⟨u, hu, ht⟩ := step_cases hs
  obtain ⟨hbu, hcu, hlu⟩ : u.busy = true ∧ u.command = some .driveLow ∧ u.lineDir ≠ .low := by
    obtain rfl | ⟨e, rest, -, rfl⟩ := hu <;> exact ⟨hb, h, hl⟩
  obtain hturn | ⟨hidle, -⟩ | ⟨r, rfl⟩ | rfl | rfl := ht
  · exact engineTurn_driveLow_then_wait hbu hcu hlu hturn hlow
  · simp [hbu] at hidle
  · exact absurd hlow hlu
  · exact absurd hlow hlu
  · cases hlow

/-- Settles O42: LINE_DIR at each position by the invariant, and DRIVE_LOW's step by what it goes on with. -/
theorem lineCommandsFitTheLine : Obligations.LineCommandsFitTheLine := by
  intro s hs hb
  have hi := reachable_inv hs
  exact ⟨hi.line.not_low_of_driveLow, hi.line.released_of_sample, hi.line.low_of_release,
    hi.line.command_of_low hi.position.inRange, fun t => step_driveLow_then_wait hi.line hb⟩

/-! ### Nothing is refused in a legal run -/

theorem waitEnds_of_delaysAnswered (ha : delaysAnswered s) : ∃ r, WaitEnds s r := by
  unfold WaitEnds State.delayReply
  cases hd : s.delay with
  | nil => exact ⟨0, rfl, rfl⟩
  | cons a rest => exact ha a (by simp [hd])

/-- A wait is over when the Delay Provider keeps its contract (40_capability_ops.md R107). -/
theorem waitFor_is_next (ha : delaysAnswered s) {d : Duration} {k : State → Result}
    (hk : ∃ t, k (s.waited d) = .next t) : ∃ t, waitFor d s k = .next t := by
  obtain ⟨r, hr⟩ := waitEnds_of_delaysAnswered ha
  rwa [waitFor_of_ok hr]

theorem byteEnd_is_next (h : s.byteIdx.toNat < 5) : ∃ t, byteEnd s = .next t := by
  by_cases h4 : s.byteIdx.toNat < 4
  · exact ⟨_, if_pos h4⟩
  · exact ⟨_, (if_neg h4).trans (if_pos (by omega))⟩

theorem slotEnd_is_next (h : s.byteIdx.toNat < 5) : ∃ t, slotEnd s = .next t := by
  by_cases h7 : s.bitIdx.toNat < 7
  · exact ⟨_, if_pos h7⟩
  · obtain ⟨t, ht⟩ := byteEnd_is_next h
    exact ⟨t, (if_neg h7).trans ht⟩

theorem execReset_is_next (ha : delaysAnswered s) {m : SampleMode} (hk : stepInRange m .reset s.step = true) :
    ∃ t, execReset s = .next t := by
  unfold execReset
  cases hs : s.step <;> rw [hs] at hk
  case s0 => exact busCommand_is_next _ _ _ _
  case s1 => exact waitFor_is_next ha ⟨_, rfl⟩
  case s2 => exact busCommand_is_next _ _ _ _
  all_goals cases hk

theorem execPresence_is_next (ha : delaysAnswered s) (hl : presencePollsLegal s.cfg = true) {m : SampleMode}
    (hk : stepInRange m .presence s.step = true) : ∃ t, execPresence s = .next t := by
  unfold execPresence
  cases hs : s.step <;> rw [hs] at hk
  case s0 => exact waitFor_is_next ha ⟨_, rfl⟩
  case s1 =>
    rw [if_pos hl]
    exact busCommand_is_next _ _ _ _
  case s2 => exact waitFor_is_next ha ⟨_, rfl⟩
  all_goals cases hk

theorem execPostReset_is_next (ha : delaysAnswered s) {m : SampleMode} (hk : stepInRange m .postReset s.step = true) :
    ∃ t, execPostReset s = .next t := by
  have hs : s.step = .s0 := by simpa [stepInRange] using hk
  rw [execPostReset, hs]
  exact waitFor_is_next ha ⟨_, rfl⟩

theorem slotOpen_is_next (s : State) : ∃ t, slotOpen s = .next t := by
  rw [slotOpen, driveLow]
  exact busCommand_is_next _ _ _ _

theorem slotRelease_is_next (s : State) : ∃ t, slotRelease s = .next t := by
  rw [slotRelease, release]
  exact busCommand_is_next _ _ _ _

theorem execBitReadL_is_next (ha : delaysAnswered s) (hx : s.byteIdx.toNat < 5)
    (hk : stepInRange .level .bitRead s.step = true) : ∃ t, execBitReadL s = .next t := by
  unfold execBitReadL
  cases hs : s.step <;> rw [hs] at hk
  case s0 => exact slotOpen_is_next s
  case s1 => exact waitFor_is_next ha ⟨_, rfl⟩
  case s2 => exact slotRelease_is_next s
  case s3 => exact waitFor_is_next ha ⟨_, rfl⟩
  case s4 => exact busCommand_is_next _ _ _ _
  case s5 => cases hk
  case s6 => exact waitFor_is_next ha (slotEnd_is_next hx)

theorem execBitReadT_is_next (ha : delaysAnswered s) (hl : bitLimitsLegal s.cfg = true) (hx : s.byteIdx.toNat < 5) :
    ∃ t, execBitReadT s = .next t := by
  unfold execBitReadT
  cases s.step
  case s0 => exact slotOpen_is_next s
  case s1 => exact waitFor_is_next ha ⟨_, rfl⟩
  case s2 => exact slotRelease_is_next s
  case s3 => exact waitFor_is_next ha ⟨_, rfl⟩
  case s4 =>
    rw [if_pos hl]
    exact busCommand_is_next _ _ _ _
  case s5 => exact waitFor_is_next ha ⟨_, rfl⟩
  case s6 => exact waitFor_is_next ha (slotEnd_is_next hx)

/-- The engine's turn from every state that meets the invariant: the position and the limits are legal, BYTE_IDX is below 5
in BIT_READ. -/
theorem engineTurn_is_next (hi : StateInv s) (ha : delaysAnswered s) : ∃ t, engineTurn s = .next t := by
  obtain ⟨hpolls, hbits⟩ : presencePollsLegal s.cfg = true ∧ bitLimitsLegal s.cfg = true := by
    simpa [cfgLegal] using hi.legal
  have hk := hi.position.inRange
  have hx := hi.position.indices
  unfold engineTurn
  split
  · cases hp : s.phase <;> simp only [hp, IndicesFit] at hk hx
    case idle => exact ⟨s, rfl⟩
    case reset => exact execReset_is_next ha hk
    case presence => exact execPresence_is_next ha hpolls hk
    case postReset => exact execPostReset_is_next ha hk
    case bitRead =>
      cases hm : s.cfg.sampleMode with
      | level => exact execBitReadL_is_next ha hx (hm ▸ hk)
      | threshold => exact execBitReadT_is_next ha hbits hx
    case checksum =>
      have hs : s.step = .s0 := by simpa [stepInRange] using hk
      exact ⟨_, by rw [execChecksumValidate, hs]⟩
    case decode =>
      have hs : s.step = .s0 := by simpa [stepInRange] using hk
      exact ⟨_, by rw [execDecode, hs]⟩
  · exact ⟨s, rfl⟩

/-- START and every other word written to CTRL. -/
theorem execStart_is_next (v : HostWord) (s : State) : ∃ t, execStart v s = .next t := by
  unfold execStart
  split <;> exact ⟨_, rfl⟩

theorem step_of_load_is_next {k : Fin 5} {rest : List HostEvent}
    (h : s.host = .load (s.cfg.oweBase + 4 * k) 4 :: rest) : ∃ t, step s = .next t := by
  obtain ⟨r, hr⟩ : ∃ r, regOfNumber k = .ok r := by
    by_cases hk : k = 0
    · exact ⟨.ctrl, by rw [hk]; rfl⟩
    · obtain ⟨r, hr, -⟩ := regOfNumber_of_ne_zero hk
      exact ⟨r, hr⟩
  exact ⟨_, step_of_load hr h⟩

theorem step_of_store_is_next {k : Fin 5} {v : HostWord} {rest : List HostEvent}
    (h : s.host = .store (s.cfg.oweBase + 4 * k) 4 v :: rest) : ∃ t, step s = .next t := by
  by_cases hk : k = 0
  · subst hk
    cases hv : v[0] with
    | true =>
      rw [step_of_store_ctrl hv h]
      exact execStart_is_next v _
    | false => exact ⟨_, step_of_store_notStart hv h⟩
  · obtain ⟨r, hr, hc⟩ := regOfNumber_of_ne_zero hk
    exact ⟨_, step_of_store_ignored hr hc h⟩

/-- Settles O50, by what is next: the engine's turn, or one of the host's legal events. -/
theorem nothingIsRefusedInALegalRun : Obligations.NothingIsRefusedInALegalRun := by
  intro s hs ha legal
  have hi := reachable_inv hs
  cases hh : s.host with
  | nil =>
    rw [step_of_no_host hh]
    exact engineTurn_is_next hi ha
  | cons e rest =>
    obtain rfl | rfl | ⟨rfl, hb⟩ | ⟨k, v, rfl | rfl⟩ := legal e rest hh
    · rw [step_of_run hh]
      exact engineTurn_is_next (hi.hostSide rest s.hostData) ha
    · exact ⟨_, step_of_resetInput hh⟩
    · exact ⟨{ s with host := rest }, by simp [step_of_host hh, hostFetch, runFetched, foreignUse, hb]⟩
    · exact step_of_load_is_next hh
    · exact step_of_store_is_next hh

end Sys2Proof.Machine
end

section
/-! Proofs of the family of 41_reset_presence.md: each step of RESET, PRESENCE and POST_RESET as a whole next state, with the
failures and the refusals (R120 to R122). -/

namespace Sys2Proof.Machine

variable {s : State} {r : RspWord}

/-! ### RESET -/

theorem execReset_of_s0 (hk : s.step = .s0) : execReset s = driveLow s (fun t => t.goto .reset .s1) := by
  rw [execReset, hk]

theorem execReset_of_s1 (hk : s.step = .s1) (h : WaitEnds s r) :
    execReset s = .next ((s.waited s.cfg.tResetLow).goto .reset .s2) := by
  rw [execReset, hk]
  exact waitFor_of_ok h

theorem execReset_of_s2 (hk : s.step = .s2) : execReset s = release s afterResetPulse := by
  rw [execReset, hk]

/-- Where RESET S2 goes, as one position. -/
theorem afterResetPulse_eq_goto (t : State) :
    afterResetPulse t = t.goto (if t.cfg.presenceCheck then .presence else .postReset) .s0 := by
  unfold afterResetPulse
  cases t.cfg.presenceCheck <;> rfl

/-- Settles O14: S0 and S2 are a line command with what goes on after it, S1 is a wait; a failure is the command's own. -/
theorem resetRoutineResult : Obligations.ResetRoutineResult := by
  refine ⟨fun s r hk h => ?_, fun s r hk h => execReset_of_s1 hk h, fun s r hk h => ?_, fun s r hk h => ?_,
    fun s r hk h => ?_, fun s h0 h1 h2 => ?_⟩
  · rw [exec, execReset_of_s0 hk, driveLow_of_ok h, lineTold_eq]
    rfl
  · rw [exec, execReset_of_s2 hk, release_of_ok h, afterResetPulse_eq_goto, State.setLineDir_cfg, lineTold_eq,
      ← State.dropBus_cfg s]
    rfl
  · rw [exec, exec, execReset_of_s0 hk, execDriveLow, driveLow_of_fail h, driveLow_of_fail h]
  · rw [exec, exec, execReset_of_s2 hk, execRelease, release_of_fail h, release_of_fail h]
  · rw [exec, execReset]
    cases hk : s.step with
    | s0 => exact absurd hk h0
    | s1 => exact absurd hk h1
    | s2 => exact absurd hk h2
    | _ => rfl

/-! ### PRESENCE -/

theorem execPresence_of_s0 (hk : s.step = .s0) (h : WaitEnds s r) :
    execPresence s = .next (((s.waited s.cfg.tPresenceDelay).setPollCnt 0).goto .presence .s1) := by
  rw [execPresence, hk]
  exact waitFor_of_ok h

theorem execPresence_of_s1 (hk : s.step = .s1) (hl : 0 < s.cfg.presencePolls.toNat) :
    execPresence s = sample s presenceSampled := by
  rw [execPresence, hk]
  exact if_pos (decide_eq_true hl)

theorem execPresence_of_s2 (hk : s.step = .s2) (h : WaitEnds s r) :
    execPresence s = .next ((s.waited s.cfg.tPresencePoll).goto .presence .s1) := by
  rw [execPresence, hk]
  exact waitFor_of_ok h

/-- A high sample has been taken and counted. -/
abbrev State.countedHigh (s : State) : State := (s.lineTold .sample (.level true)).setPollCnt (s.pollCnt + 1)

/-- A low sample ends the poll. -/
theorem execPresence_of_low (hk : s.step = .s1) (hl : 0 < s.cfg.presencePolls.toNat) (h : LineSays s r)
    (hr : rspLevel r = false) :
    execPresence s = .next ((s.lineTold .sample (.level false)).goto .postReset .s0) := by
  rw [execPresence_of_s1 hk hl, sample_of_level h, hr]
  rfl

/-- A high sample that is not the last allowed one is counted. -/
theorem execPresence_of_counted (hk : s.step = .s1) (h : LineSays s r) (hr : rspLevel r = true)
    (hc : s.pollCnt.toNat + 1 < s.cfg.presencePolls.toNat) :
    execPresence s = .next (s.countedHigh.goto .presence .s2) := by
  have hcount := toNat_add_one_of_lt_limit (x := s.pollCnt) (l := s.cfg.presencePolls) (by omega)
  have hne : s.pollCnt + 1#16 ≠ s.cfg.presencePolls := by
    intro e
    rw [e] at hcount
    omega
  rw [execPresence_of_s1 hk (by omega), sample_of_level h, hr]
  simp [presenceSampled, State.countedHigh, hne]

/-- The last allowed high sample is Timeout. -/
theorem execPresence_of_timeout (hk : s.step = .s1) (h : LineSays s r) (hr : rspLevel r = true)
    (hc : s.pollCnt.toNat + 1 = s.cfg.presencePolls.toNat) :
    execPresence s = .next (s.countedHigh.raise .timeout) := by
  have hcount := toNat_add_one_of_lt_limit (x := s.pollCnt) (l := s.cfg.presencePolls) (by omega)
  have hlast : s.pollCnt + 1#16 = s.cfg.presencePolls := BitVec.eq_of_toNat_eq (hcount.trans hc)
  rw [execPresence_of_s1 hk (by omega), sample_of_level h, hr]
  simp [presenceSampled, State.countedHigh, hlast]

/-- Settles O15: the waits of S0 and S2, S1 by the level of its sample and by the count, and the refusals. -/
theorem presenceRoutineResult : Obligations.PresenceRoutineResult := by
  refine ⟨fun s r hk h => execPresence_of_s0 hk h, fun s r hk hl h hr => ?_, fun s r hk h hr hc => ?_,
    fun s r hk h hr hc => ?_, fun s r hk hl h => ?_, fun s r hk h => execPresence_of_s2 hk h, fun s hk h0 => ?_,
    fun s h0 h1 h2 => ?_⟩
  · rw [exec, execPresence_of_low hk hl h hr, lineTold_eq]
    rfl
  · rw [exec, execPresence_of_counted hk h hr hc, State.countedHigh, lineTold_eq]
    rfl
  · rw [exec, execPresence_of_timeout hk h hr hc, State.countedHigh, lineTold_eq]
    rfl
  · rw [exec, exec, execPresence_of_s1 hk hl, execSample, sample_of_fail h, sample_of_fail h]
  · simp [exec, execPresence, hk, presencePollsLegal, h0]
  · rw [exec, execPresence]
    cases hk : s.step with
    | s0 => exact absurd hk h0
    | s1 => exact absurd hk h1
    | s2 => exact absurd hk h2
    | _ => rfl

/-! ### POST_RESET -/

theorem execPostReset_of_s0 (hk : s.step = .s0) (h : WaitEnds s r) :
    execPostReset s = .next ((s.waited s.cfg.tPostReset).goto .bitRead .s0) := by
  rw [execPostReset, hk]
  exact waitFor_of_ok h

/-- Settles O16: S0 is a wait, and no other STEP is one of the routine's. -/
theorem postResetRoutineResult : Obligations.PostResetRoutineResult := by
  refine ⟨fun s r hk h => execPostReset_of_s0 hk h, fun s h0 => ?_⟩
  rw [exec, execPostReset]
  cases hk : s.step with
  | s0 => exact absurd hk h0
  | _ => rfl

end Sys2Proof.Machine
end

section
/-! Proofs of the family of 41_reset_presence.md: the whole poll of PRESENCE (R121, 70_reset_and_hazards.md R234). -/

namespace Sys2Proof.Machine

variable {s : State} {k : Nat} {rest : List Reply}

theorem busReply_of_cons {a : Reply} (h : s.bus = a :: rest) : s.busReply = a := by
  rw [State.busReply, h]

theorem dropBus_of_cons {a : Reply} (h : s.bus = a :: rest) : s.dropBus = { s with bus := rest } := by
  rw [State.dropBus, h]

theorem lineSays_of_levelReply {b : Bool} (h : s.bus = levelReply b :: rest) :
    LineSays s (encodeResponse (.level b)) :=
  ⟨busReply_of_cons h, by cases b <;> rfl⟩

theorem portWord_sample : portWord .sample = 0x300000000#36 := rfl

/-- The engine stands at this STEP of PRESENCE, left alone by the host and with every wait answered. -/
structure InPresence (s : State) (pos : Step) : Prop where
  busy : s.busy = true
  phase : s.phase = .presence
  position : s.step = pos
  host : s.host = []
  delays : delaysAnswered s

/-- A step there is the routine's. -/
theorem InPresence.step_eq {pos : Step} (h : InPresence s pos) : step s = execPresence s := by
  rw [step_of_no_host h.host]
  simp [engineTurn, h.busy, h.phase]

/-- The lines of `k` high samples, each with the wait that follows it. -/
def highPollLines (c : Cfg) (k : Nat) : List Exchange :=
  (List.replicate k [⟨portWord .sample, .level true⟩, delayLine c.tPresencePoll]).flatten

theorem highPollLines_succ (c : Cfg) (k : Nat) :
    highPollLines c (k + 1) = highPollLines c k ++ [⟨portWord .sample, .level true⟩, delayLine c.tPresencePoll] := by
  simp [highPollLines, List.replicate_succ']

theorem length_highPollLines (c : Cfg) (k : Nat) : (highPollLines c k).length = 2 * k := by
  induction k with
  | zero => rfl
  | succ k ih => simp [highPollLines_succ, ih, Nat.mul_add]

/-- From S0 of PRESENCE in `s`, the state before the next sample when `k` samples were high and `rest` is left of the answers
of the Bus Line. -/
def State.polledHigh (s : State) (k : Nat) (rest : List Reply) : State :=
  { s with
    bus := rest
    delay := s.delay.drop (k + 1)
    trace := s.trace ++ delayLine s.cfg.tPresenceDelay :: highPollLines s.cfg k
    pollCnt := BitVec.ofNat 16 k
    phase := .presence
    step := .s1 }

theorem InPresence.polledHigh (h : InPresence s .s0) (k : Nat) (rest : List Reply) :
    InPresence (s.polledHigh k rest) .s1 where
  busy := h.busy
  phase := rfl
  position := rfl
  host := h.host
  delays := fun a ha => h.delays a (List.mem_of_mem_drop ha)

/-- No count up to a limit wraps. -/
theorem polledHigh_pollCnt (hk : k < s.cfg.presencePolls.toNat) : (s.polledHigh k rest).pollCnt.toNat = k := by
  have hlt : k < 2 ^ 16 := hk.trans s.cfg.presencePolls.isLt
  simpa [State.polledHigh] using hlt

/-- S0 waits and clears POLL_CNT. -/
theorem InPresence.step_delay (h : InPresence s .s0) : step s = .next (s.polledHigh 0 s.bus) := by
  obtain ⟨r, hr⟩ := waitEnds_of_delaysAnswered h.delays
  rw [h.step_eq, execPresence_of_s0 h.position hr]
  simp [State.polledHigh, State.goto, State.setPollCnt, State.record, State.dropDelay, highPollLines, delayLine]

/-- A counted sample leaves the engine at S2. -/
theorem InPresence.countedHigh (h : InPresence s .s1) : InPresence (s.countedHigh.goto .presence .s2) .s2 where
  busy := by simp [h.busy]
  phase := rfl
  position := rfl
  host := by simp [h.host]
  delays := by simpa [delaysAnswered] using h.delays

/-- A counted high sample and its wait, field by field. -/
theorem polledHigh_succ (s : State) (k : Nat) (rest : List Reply) :
    (((s.polledHigh k (levelReply true :: rest)).countedHigh.goto .presence .s2).waited s.cfg.tPresencePoll).goto
      .presence .s1 = s.polledHigh (k + 1) rest := by
  rw [State.countedHigh, lineTold_eq, dropBus_of_cons rfl]
  simp [State.polledHigh, State.goto, State.setPollCnt, State.record, State.dropDelay, highPollLines_succ, delayLine,
    BitVec.ofNat_add]

/-- A high sample that is not the last allowed one is counted and waited after: two commands. -/
theorem InPresence.run_highPoll (h : InPresence s .s0) (hk : k + 1 < s.cfg.presencePolls.toNat) :
    Sys2Proof.core.run 2 (s.polledHigh k (levelReply true :: rest)) = .next (s.polledHigh (k + 1) rest) := by
  have hu := h.polledHigh k (levelReply true :: rest)
  have hcount := polledHigh_pollCnt (s := s) (k := k) (rest := levelReply true :: rest) (by omega)
  have hsample := hu.step_eq.trans
    (execPresence_of_counted hu.position (lineSays_of_levelReply rfl) rfl (by rwa [hcount]))
  have hv := hu.countedHigh
  obtain ⟨r, hr⟩ := waitEnds_of_delaysAnswered hv.delays
  have hwait := hv.step_eq.trans (execPresence_of_s2 hv.position hr)
  rw [run_succ_of_step 1 hsample, run_succ_of_step 0 hwait, ← polledHigh_succ]
  rfl

/-- `k` high samples below the limit take `2k` commands after the first wait. -/
theorem InPresence.run_polledHigh (h : InPresence s .s0) (hk : k < s.cfg.presencePolls.toNat)
    (hb : s.bus = List.replicate k (levelReply true) ++ rest) :
    Sys2Proof.core.run (2 * k + 1) s = .next (s.polledHigh k rest) := by
  induction k generalizing rest with
  | zero =>
    obtain rfl : s.bus = rest := hb
    exact run_succ_of_step 0 h.step_delay
  | succ k ih =>
    have hb' : s.bus = List.replicate k (levelReply true) ++ levelReply true :: rest := by
      simpa [List.replicate_succ'] using hb
    exact run_add (2 * k + 1) 2 (ih (by omega) hb') (h.run_highPoll hk)

/-- After `k` high samples a low one ends the poll. -/
theorem InPresence.run_low (h : InPresence s .s0) (hk : k < s.cfg.presencePolls.toNat)
    (hb : s.bus = List.replicate k (levelReply true) ++ levelReply false :: rest) :
    Sys2Proof.core.run (2 * (k + 1)) s =
      .next (((s.polledHigh k (levelReply false :: rest)).lineTold .sample (.level false)).goto .postReset .s0) := by
  have hu := h.polledHigh k (levelReply false :: rest)
  have hlow := hu.step_eq.trans
    (execPresence_of_low hu.position (Nat.zero_lt_of_lt hk) (lineSays_of_levelReply rfl) rfl)
  exact run_add (2 * k + 1) 1 (h.run_polledHigh hk hb) (run_succ_of_step 0 hlow)

/-- After `k` high samples the last allowed one is Timeout. -/
theorem InPresence.run_timeout (h : InPresence s .s0) (hk : k + 1 = s.cfg.presencePolls.toNat)
    (hb : s.bus = List.replicate k (levelReply true) ++ levelReply true :: rest) :
    Sys2Proof.core.run (2 * (k + 1)) s =
      .next ((s.polledHigh k (levelReply true :: rest)).countedHigh.raise .timeout) := by
  have hu := h.polledHigh k (levelReply true :: rest)
  have hcount := polledHigh_pollCnt (s := s) (k := k) (rest := levelReply true :: rest) (by omega)
  have hlast := hu.step_eq.trans
    (execPresence_of_timeout hu.position (lineSays_of_levelReply rfl) rfl (by rwa [hcount]))
  exact run_add (2 * k + 1) 1 (h.run_polledHigh (by omega) hb) (run_succ_of_step 0 hlast)

/-- Settles O57: the low sample, or the last allowed high one, comes after the high ones that were counted. -/
theorem presencePollsAreCounted : Obligations.PresencePollsAreCounted := by
  intro s k rest hbusy hp hk hh hd
  have h : InPresence s .s0 := ⟨hbusy, hp, hk, hh, by simp [delaysAnswered, hd]⟩
  refine ⟨fun hlt hb => ?_, fun hlast hpos hb => ?_⟩
  · refine ⟨_, h.run_low hlt (by simpa using hb), ?_, rfl, rfl, ?_, ?_, ?_, ?_⟩
    · simp [State.polledHigh, highPollLines, portWord_sample]
    · simpa using polledHigh_pollCnt hlt
    · simp [State.polledHigh]
    · simp [State.polledHigh]
    · simpa [State.polledHigh] using hbusy
  · obtain ⟨m, rfl⟩ := Nat.exists_eq_add_one_of_ne_zero hpos.ne'
    refine ⟨_, h.run_timeout hlast (by simpa [List.replicate_succ'] using hb), ?_, rfl, rfl, rfl, rfl, ?_, ?_⟩
    · simp [State.polledHigh, length_highPollLines, Nat.mul_add]
    · simp [State.polledHigh]
    · simp [State.polledHigh]

end Sys2Proof.Machine
end

section
/-! Proofs of the family of 42_bit_byte_read.md: each step of BIT_READ as a whole next state, in both modes, with the failures
and the refusals (R140 to R143). -/

namespace Sys2Proof.Machine

variable {s : State} {r : RspWord} {i : Instr}

/-! ### Slot end and byte end -/

theorem slotEnd_of_lt_seven (h : s.bitIdx.toNat < 7) : slotEnd s = .next ((bitCounted s).goto .bitRead .s0) :=
  if_pos h

theorem slotEnd_of_eq_seven (h : s.bitIdx.toNat = 7) : slotEnd s = byteEnd s :=
  if_neg (by omega)

/-- A data byte is stored and added to CSUM. -/
theorem slotEnd_of_dataByte (h7 : s.bitIdx.toNat = 7) (h4 : s.byteIdx.toNat < 4) :
    slotEnd s = .next { s with
      frame := storeFrame s.frame s.byteIdx s.cur, csum := s.csum + s.cur
      byteIdx := s.byteIdx + 1, bitIdx := 0, cur := 0, phase := .bitRead, step := .s0 } := by
  rw [slotEnd_of_eq_seven h7, byteEnd, if_pos h4, byteStored, if_pos h4]
  rfl

/-- The fifth byte is stored only, and ends the frame. -/
theorem slotEnd_of_fifthByte (h7 : s.bitIdx.toNat = 7) (h4 : s.byteIdx.toNat = 4) :
    slotEnd s = .next { s with
      frame := storeFrame s.frame s.byteIdx s.cur
      byteIdx := s.byteIdx + 1, bitIdx := 0, cur := 0, phase := .checksum, step := .s0 } := by
  rw [slotEnd_of_eq_seven h7, byteEnd, if_neg (by omega), if_pos h4, byteStored, if_neg (by omega)]
  rfl

theorem slotEnd_of_sixthByte (h7 : s.bitIdx.toNat = 7) (h4 : 4 < s.byteIdx.toNat) :
    slotEnd s = .refused .byteIdxNeverTaken := by
  rw [slotEnd_of_eq_seven h7, byteEnd, if_neg (by omega), if_neg (by omega)]

/-! ### The steps of both modes -/

/-- The two routines of a read time slot. -/
abbrev IsBitRead (i : Instr) : Prop := i = .bitReadL ∨ i = .bitReadT

theorem execBitRead_of_s0 (hi : IsBitRead i) (hk : s.step = .s0) :
    exec i s = driveLow s (fun t => t.goto .bitRead .s1) := by
  obtain rfl | rfl := hi <;> simp only [exec, execBitReadL, execBitReadT, hk, slotOpen]

theorem execBitRead_of_s1 (hi : IsBitRead i) (hk : s.step = .s1) (h : WaitEnds s r) :
    exec i s = .next ((s.waited s.cfg.tSlotLow).goto .bitRead .s2) := by
  obtain rfl | rfl := hi <;> simp only [exec, execBitReadL, execBitReadT, hk, slotHold, waitFor_of_ok h]

theorem execBitRead_of_s2 (hi : IsBitRead i) (hk : s.step = .s2) :
    exec i s = release s (fun t => t.goto .bitRead .s3) := by
  obtain rfl | rfl := hi <;> simp only [exec, execBitReadL, execBitReadT, hk, slotRelease]

theorem execBitRead_of_s6 (hi : IsBitRead i) (hk : s.step = .s6) (h : WaitEnds s r) :
    exec i s = slotEnd (s.waited s.cfg.tRecovery) := by
  obtain rfl | rfl := hi <;> simp only [exec, execBitReadL, execBitReadT, hk, slotRecover, waitFor_of_ok h]

/-- Settles O17: S0 and S2 are a line command, S1 is a wait; a failure is the command's own. -/
theorem slotOpeningResult : Obligations.SlotOpeningResult := by
  refine fun i hi => ⟨fun s r hk h => ?_, fun s r hk h => execBitRead_of_s1 hi hk h, fun s r hk h => ?_,
    fun s r hk h => ?_, fun s r hk h => ?_⟩
  · rw [execBitRead_of_s0 hi hk, driveLow_of_ok h, lineTold_eq]
    rfl
  · rw [execBitRead_of_s2 hi hk, release_of_ok h, lineTold_eq]
    rfl
  · rw [execBitRead_of_s0 hi hk, exec, execDriveLow, driveLow_of_fail h, driveLow_of_fail h]
  · rw [execBitRead_of_s2 hi hk, exec, execRelease, release_of_fail h, release_of_fail h]

/-- Settles O20: S6 is a wait and slot end, by the bit and by the byte that end there. -/
theorem slotEndAndByteEndResult : Obligations.SlotEndAndByteEndResult := by
  refine ⟨fun i s r hi hk h => ?_, fun f k b j => storeFrame_get f k b j j.isLt⟩
  rw [execBitRead_of_s6 hi hk h]
  exact ⟨slotEnd_of_lt_seven (s := s.waited s.cfg.tRecovery), slotEnd_of_dataByte (s := s.waited s.cfg.tRecovery),
    slotEnd_of_fifthByte (s := s.waited s.cfg.tRecovery), slotEnd_of_sixthByte (s := s.waited s.cfg.tRecovery)⟩

/-! ### The sample in LEVEL mode -/

theorem execBitReadL_of_s3 (hk : s.step = .s3) (h : WaitEnds s r) :
    execBitReadL s = .next ((s.waited s.cfg.tSettle).goto .bitRead .s4) := by
  simp only [execBitReadL, hk, waitFor_of_ok h]

theorem execBitReadL_of_s4 (hk : s.step = .s4) : execBitReadL s = sample s levelSampled := by
  simp only [execBitReadL, hk]

/-- Settles O18: S3 is a wait, S4 shifts in what its sample gives, S5 is no step of the mode. -/
theorem levelSampleResult : Obligations.LevelSampleResult := by
  refine ⟨fun s r hk h => execBitReadL_of_s3 hk h, fun s r hk h => ?_, fun s r hk h => ?_, fun s hk => ?_⟩
  · rw [exec, execBitReadL_of_s4 hk, sample_of_level h, levelSampled, lineTold_eq]
    simp only [State.dropBus_cur]
    rfl
  · rw [exec, exec, execBitReadL_of_s4 hk, execSample, sample_of_fail h, sample_of_fail h]
  · simp only [exec, execBitReadL, hk]

/-! ### The samples in THRESHOLD mode -/

theorem execBitReadT_of_s3 (hk : s.step = .s3) (h : WaitEnds s r) :
    execBitReadT s = .next (((s.waited s.cfg.tSettle).setPollCnt 0).goto .bitRead .s4) := by
  simp only [execBitReadT, hk, waitFor_of_ok h]

theorem execBitReadT_of_s4 (hk : s.step = .s4) (hl : bitLimitsLegal s.cfg = true) :
    execBitReadT s = sample s thresholdSampled := by
  simp only [execBitReadT, hk, hl, if_true]

theorem execBitReadT_of_s5 (hk : s.step = .s5) (h : WaitEnds s r) :
    execBitReadT s = .next ((s.waited s.cfg.tBitPoll).goto .bitRead .s4) := by
  simp only [execBitReadT, hk, waitFor_of_ok h]

/-- A high sample ends the poll with a bit. -/
theorem execBitReadT_of_high (hk : s.step = .s4) (hl : bitLimitsLegal s.cfg = true) (h : LineSays s r)
    (hr : rspLevel r = true) :
    execBitReadT s = .next (((s.lineTold .sample (.level true)).setCur
      (shiftIn s.cur (decide (s.pollCnt.toNat < s.cfg.bitThreshold.toNat)))).goto .bitRead .s6) := by
  rw [execBitReadT_of_s4 hk hl, sample_of_level h, hr]
  simp [thresholdSampled, thresholdBit, BitVec.lt_def]

/-- A low sample has been taken and counted. -/
abbrev State.countedLow (s : State) : State := (s.lineTold .sample (.level false)).setPollCnt (s.pollCnt + 1)

/-- A low sample that is not the last allowed one is counted. -/
theorem execBitReadT_of_counted (hk : s.step = .s4) (hl : bitLimitsLegal s.cfg = true) (h : LineSays s r)
    (hr : rspLevel r = false) (hc : s.pollCnt.toNat + 1 < s.cfg.bitPollMax.toNat) :
    execBitReadT s = .next (s.countedLow.goto .bitRead .s5) := by
  have hcount := toNat_add_one_of_lt_limit (x := s.pollCnt) (l := s.cfg.bitPollMax) (by omega)
  have hne : s.pollCnt + 1#16 ≠ s.cfg.bitPollMax := by
    intro e
    rw [e] at hcount
    omega
  rw [execBitReadT_of_s4 hk hl, sample_of_level h, hr]
  simp [thresholdSampled, State.countedLow, hne]

/-- The last allowed low sample is Timeout. -/
theorem execBitReadT_of_timeout (hk : s.step = .s4) (hl : bitLimitsLegal s.cfg = true) (h : LineSays s r)
    (hr : rspLevel r = false) (hc : s.pollCnt.toNat + 1 = s.cfg.bitPollMax.toNat) :
    execBitReadT s = .next (s.countedLow.raise .timeout) := by
  have hcount := toNat_add_one_of_lt_limit (x := s.pollCnt) (l := s.cfg.bitPollMax) (by omega)
  have hlast : s.pollCnt + 1#16 = s.cfg.bitPollMax := BitVec.eq_of_toNat_eq (hcount.trans hc)
  rw [execBitReadT_of_s4 hk hl, sample_of_level h, hr]
  simp [thresholdSampled, State.countedLow, hlast]

/-- The limits U16 leaves without a meaning. -/
theorem bitLimitsLegal_eq_false {c : Cfg}
    (h : c.bitPollMax = 0 ∨ c.bitThreshold = 0 ∨ c.bitPollMax.toNat < c.bitThreshold.toNat) :
    bitLimitsLegal c = false := by
  refine decide_eq_false fun ⟨hmax, hthreshold, hle⟩ => ?_
  obtain h0 | h0 | hlt := h
  · simp [h0] at hmax
  · simp [h0] at hthreshold
  · omega

/-- Settles O19: the waits of S3 and S5, S4 by the level of its sample and by the count, and the refusal. -/
theorem thresholdSampleResult : Obligations.ThresholdSampleResult := by
  refine ⟨fun s r hk h => execBitReadT_of_s3 hk h, fun s r hl hk h hr => ?_, fun s r hl hk h hr hc => ?_,
    fun s r hl hk h hr hc => ?_, fun s r hl hk h => ?_, fun s r hk h => execBitReadT_of_s5 hk h, fun s hk hl => ?_⟩
  · rw [exec, execBitReadT_of_high hk hl h hr, lineTold_eq]
    rfl
  · rw [exec, execBitReadT_of_counted hk hl h hr hc, State.countedLow, lineTold_eq]
    rfl
  · rw [exec, execBitReadT_of_timeout hk hl h hr hc, State.countedLow, lineTold_eq]
    rfl
  · rw [exec, exec, execBitReadT_of_s4 hk hl, execSample, sample_of_fail h, sample_of_fail h]
  · simp [exec, execBitReadT, hk, bitLimitsLegal_eq_false hl]

end Sys2Proof.Machine
end

section
/-! Proofs of the family of 42_bit_byte_read.md: where a Timeout can come from (R145). -/

namespace Sys2Proof.Machine

variable {s t : State}

/-- The block reports a Timeout. -/
def ReportsTimeout (s : State) : Prop := s.done = true ∧ s.kind = .timeout

/-- The engine stands at a sample whose loop is counted (41_reset_presence.md R121, R141). -/
def CountsSamples (s : State) : Prop :=
  (s.phase = .presence ∧ s.step = .s1) ∨ (s.phase = .bitRead ∧ s.step = .s4 ∧ s.cfg.sampleMode = .threshold)

/-- A row that reports a Timeout is the end of one of the two loops, or the one that changes nothing. -/
theorem turn_reportsTimeout (h : Turn s t) (ht : ReportsTimeout t) : ReportsTimeout s ∨ CountsSamples s := by
  obtain ⟨hdone, hkind⟩ := ht
  cases h
  case presenceTimeout hb hp hk hl hc => exact .inr (.inl ⟨hp, hk⟩)
  case thresholdTimeout hb hp hk hm hl hc => exact .inr (.inr ⟨hp, hk, hm⟩)
  case lowFails | releaseFails | sampleFails | sumBad | decoded => cases hkind
  all_goals exact .inl ⟨by simpa using hdone, by simpa using hkind⟩

/-- Of what else a step can do, START and the reset input leave nothing reported. -/
theorem step_reportsTimeout (h : step s = .next t) (ht : ReportsTimeout t) : ReportsTimeout s ∨ CountsSamples s := by
  obtain ⟨u, hu, h⟩ := step_cases h
  have hcases : ReportsTimeout u ∨ CountsSamples u := by
    obtain hturn | ⟨-, rfl⟩ | ⟨r, rfl⟩ | rfl | rfl := h
    · exact turn_reportsTimeout (turn_of_engineTurn hturn) ht
    · cases ht.1
    · exact .inl ht
    · exact .inl ht
    · cases ht.1
  obtain rfl | ⟨e, rest, -, rfl⟩ := hu <;> exact hcases

/-- Under a `cfg` without presence check and without polled slots, no Timeout is reported. -/
def TimeoutExcluded (s : State) : Prop :=
  s.cfg.sampleMode = .level → s.cfg.presenceCheck = false → ¬ ReportsTimeout s

/-- PRESENCE is not entered without its check, and a LEVEL slot has no loop. -/
theorem step_keeps_timeoutExcluded (hi : StateInv s) (hn : TimeoutExcluded s) (h : step s = .next t) :
    TimeoutExcluded t := by
  unfold TimeoutExcluded
  rw [configurationIsConstant s t h]
  intro hm hc ht
  obtain hs | ⟨hp, -⟩ | ⟨-, -, hm'⟩ := step_reportsTimeout h ht
  · exact hn hm hc hs
  · simp [hi.position.presenceEntered hp] at hc
  · simp [hm] at hm'

theorem reachable_timeoutExcluded (h : Reachable s) : TimeoutExcluded s :=
  (reachable_induction (P := fun s => StateInv s ∧ TimeoutExcluded s)
    (fun c bus delay host hc => ⟨initial_inv c bus delay host hc, fun _ _ => nofun⟩)
    (fun _ _ ⟨hi, hn⟩ hstep => ⟨step_keeps_inv hi hstep, step_keeps_timeoutExcluded hi hn hstep⟩) h).2

/-- Settles O49: a slot's step by where a Timeout can come from, a transaction by what its steps keep. -/
theorem levelModeSlotsNeverTimeOut : Obligations.LevelModeSlotsNeverTimeOut := by
  refine ⟨fun s t hm hb hd hp h ht => ?_, fun s hs hm hc hd => ?_⟩
  · obtain ⟨hd', -⟩ | ⟨hp', -⟩ | ⟨-, -, hm'⟩ := step_reportsTimeout h ht
    · simp [hd] at hd'
    · simp [hp] at hp'
    · simp [hm] at hm'
  · have hn : s.kind ≠ .timeout := fun hk => reachable_timeoutExcluded hs hm hc ⟨hd, hk⟩
    cases hk : s.kind with
    | ok => exact .inl rfl
    | busFault => exact .inr (.inl rfl)
    | checksumMismatch => exact .inr (.inr rfl)
    | timeout => exact absurd hk hn

end Sys2Proof.Machine
end

section
/-! Proofs of the family of 42_bit_byte_read.md: whole slots and whole bytes (R140 to R143). -/

namespace Sys2Proof.Machine

variable {s : State} {m : SampleMode} {pos : Step} {b : Bool} {bs : List Bool} {k : Nat} {rest : List Reply}

/-! ### One slot, step by step -/

/-- The routine of a slot in each mode. -/
def slotRoutine : SampleMode → Instr
  | .level => .bitReadL
  | .threshold => .bitReadT

theorem isBitRead_slotRoutine (m : SampleMode) : IsBitRead (slotRoutine m) := by
  cases m
  · exact .inl rfl
  · exact .inr rfl

/-- The conforming response to a DRIVE_LOW or a RELEASE (30_encoding.md R75). -/
def okReply : Reply := .word (encodeResponse .ok)

theorem okReply_eq : okReply = .word 0 := rfl

theorem lineSays_of_okReply (h : s.bus = okReply :: rest) : LineSays s (encodeResponse .ok) :=
  ⟨busReply_of_cons h, rfl⟩

/-- A step and the run after it. -/
theorem run_of_step_of_run {t u : State} {n : Nat} (h : step s = .next t) (hr : Sys2Proof.core.run n t = .next u) :
    Sys2Proof.core.run (n + 1) s = .next u :=
  (run_succ_of_step n h).trans hr

/-- A recorded answer that State listed, field by field. -/
theorem lineTold_of_cons {a : Reply} (h : s.bus = a :: rest) (c : Instr) (x : Answer) :
    s.lineTold c x = { s with bus := rest, trace := s.trace ++ [⟨portWord c, x⟩] } := by
  rw [lineTold_eq, dropBus_of_cons h]

/-- The engine stands at this STEP of a slot of this mode, left alone by the host and with every wait answered. -/
structure InSlot (m : SampleMode) (s : State) (pos : Step) : Prop where
  busy : s.busy = true
  phase : s.phase = .bitRead
  mode : s.cfg.sampleMode = m
  position : s.step = pos
  host : s.host = []
  delays : delaysAnswered s

/-- A step there is the routine's. -/
theorem InSlot.step_eq (h : InSlot m s pos) : step s = exec (slotRoutine m) s := by
  rw [step_of_no_host h.host]
  cases m <;> simp [engineTurn, h.busy, h.phase, h.mode, slotRoutine, exec]

/-- What the exchanges of a slot do to `s`, CUR and POLL_CNT apart: `rest` is left of the Bus Line's answers, `n` waits are
over, `lines` have been added to the trace. -/
def State.inSlot (s : State) (pos : Step) (line : LineDir) (rest : List Reply) (n : Nat)
    (lines : List Exchange) : State :=
  { s with
    bus := rest
    delay := s.delay.drop n
    trace := s.trace ++ lines
    lineDir := line
    phase := .bitRead
    step := pos }

theorem InSlot.inSlot (h : InSlot m s pos) (pos' : Step) (line : LineDir) (rest : List Reply) (n : Nat)
    (lines : List Exchange) : InSlot m (s.inSlot pos' line rest n lines) pos' where
  busy := h.busy
  phase := rfl
  mode := h.mode
  position := rfl
  host := h.host
  delays := fun a ha => h.delays a (List.mem_of_mem_drop ha)

theorem InSlot.setCur (h : InSlot m s pos) (v : Byte) : InSlot m (s.setCur v) pos :=
  ⟨h.busy, h.phase, h.mode, h.position, h.host, h.delays⟩

theorem InSlot.setPollCnt (h : InSlot m s pos) (n : BitVec 16) : InSlot m (s.setPollCnt n) pos :=
  ⟨h.busy, h.phase, h.mode, h.position, h.host, h.delays⟩

/-- The exchanges of a slot one after another. -/
theorem inSlot_inSlot (s : State) (p p' : Step) (l l' : LineDir) (b b' : List Reply) (n n' : Nat) (x x' : List Exchange) :
    (s.inSlot p l b n x).inSlot p' l' b' n' x' = s.inSlot p' l' b' (n + n') (x ++ x') := by
  simp [State.inSlot]

/-- A wait of a slot, as a move in the slot. -/
theorem waited_goto_eq_inSlot (s : State) (d : Duration) (p : Step) :
    (s.waited d).goto .bitRead p = s.inSlot p s.lineDir s.bus 1 [delayLine d] := by
  simp [State.inSlot, State.goto, State.record, State.dropDelay, delayLine]

theorem InSlot.step_open (h : InSlot m s .s0) (hb : s.bus = okReply :: rest) :
    step s = .next (s.inSlot .s1 .low rest 0 [⟨portWord .driveLow, .ok⟩]) := by
  rw [h.step_eq, execBitRead_of_s0 (isBitRead_slotRoutine m) h.position, driveLow_of_ok (lineSays_of_okReply hb),
    lineTold_of_cons hb]
  rfl

theorem InSlot.step_hold (h : InSlot m s .s1) :
    step s = .next (s.inSlot .s2 s.lineDir s.bus 1 [delayLine s.cfg.tSlotLow]) := by
  obtain ⟨r, hr⟩ := waitEnds_of_delaysAnswered h.delays
  rw [h.step_eq, execBitRead_of_s1 (isBitRead_slotRoutine m) h.position hr, waited_goto_eq_inSlot]

theorem InSlot.step_release (h : InSlot m s .s2) (hb : s.bus = okReply :: rest) :
    step s = .next (s.inSlot .s3 .released rest 0 [⟨portWord .release, .ok⟩]) := by
  rw [h.step_eq, execBitRead_of_s2 (isBitRead_slotRoutine m) h.position, release_of_ok (lineSays_of_okReply hb),
    lineTold_of_cons hb]
  rfl

/-- S6 is its wait and slot end. -/
theorem InSlot.step_recover (h : InSlot m s .s6) : step s = slotEnd (s.waited s.cfg.tRecovery) := by
  obtain ⟨r, hr⟩ := waitEnds_of_delaysAnswered h.delays
  rw [h.step_eq, execBitRead_of_s6 (isBitRead_slotRoutine m) h.position hr]

/-- The lines of S0 to S2. -/
def openingLines (c : Cfg) : List Exchange :=
  [⟨portWord .driveLow, .ok⟩, delayLine c.tSlotLow, ⟨portWord .release, .ok⟩]

/-- S0 to S2, in both modes. -/
theorem InSlot.run_opening (h : InSlot m s .s0) (hb : s.bus = okReply :: okReply :: rest) :
    Sys2Proof.core.run 3 s = .next (s.inSlot .s3 .released rest 1 (openingLines s.cfg)) := by
  have h1 := h.inSlot .s1 .low (okReply :: rest) 0 [⟨portWord .driveLow, .ok⟩]
  have h2 := h1.inSlot .s2 .low (okReply :: rest) 1 [delayLine s.cfg.tSlotLow]
  refine run_of_step_of_run (h.step_open hb) ?_
  refine run_of_step_of_run h1.step_hold ?_
  refine run_of_step_of_run (h2.step_release rfl) ?_
  simp only [inSlot_inSlot]
  rfl

/-! ### LEVEL mode -/

theorem InSlot.step_settleL (h : InSlot .level s .s3) :
    step s = .next (s.inSlot .s4 s.lineDir s.bus 1 [delayLine s.cfg.tSettle]) := by
  obtain ⟨r, hr⟩ := waitEnds_of_delaysAnswered h.delays
  rw [h.step_eq, slotRoutine, exec, execBitReadL_of_s3 h.position hr, waited_goto_eq_inSlot]

theorem InSlot.step_sampleL (h : InSlot .level s .s4) (hb : s.bus = levelReply b :: rest) :
    step s = .next ((s.inSlot .s6 s.lineDir rest 0 [⟨portWord .sample, .level b⟩]).setCur (shiftIn s.cur b)) := by
  have hl : rspLevel (encodeResponse (.level b)) = b := by cases b <;> rfl
  rw [h.step_eq, slotRoutine, exec, execBitReadL_of_s4 h.position, sample_of_level (lineSays_of_levelReply hb), hl,
    lineTold_of_cons hb]
  rfl

/-- The lines of a LEVEL slot before its recovery delay. -/
def sampledLines (c : Cfg) (b : Bool) : List Exchange :=
  openingLines c ++ [delayLine c.tSettle, ⟨portWord .sample, .level b⟩]

/-- The state at S6 of a LEVEL slot that has sampled `b`. -/
def State.sampledBit (s : State) (b : Bool) (rest : List Reply) : State :=
  (s.inSlot .s6 .released rest 2 (sampledLines s.cfg b)).setCur (shiftIn s.cur b)

theorem InSlot.sampledBit (h : InSlot .level s pos) (b : Bool) (rest : List Reply) :
    InSlot .level (s.sampledBit b rest) .s6 :=
  (h.inSlot _ _ _ _ _).setCur _

/-- A LEVEL slot up to its recovery delay. -/
theorem InSlot.run_sampledBit (h : InSlot .level s .s0) (hb : s.bus = slotReplies b ++ rest) :
    Sys2Proof.core.run 5 s = .next (s.sampledBit b rest) := by
  have h3 := h.inSlot .s3 .released (levelReply b :: rest) 1 (openingLines s.cfg)
  have h4 := h3.inSlot .s4 .released (levelReply b :: rest) 1 [delayLine s.cfg.tSettle]
  refine run_add 3 2 (h.run_opening hb) ?_
  refine run_of_step_of_run h3.step_settleL (run_of_step_of_run (h4.step_sampleL rfl) ?_)
  simp only [inSlot_inSlot]
  rfl

/-- A LEVEL slot that does not end a byte has read `b`; three answers of the Bus Line and three waits are used up. -/
def State.readBit (s : State) (b : Bool) : State :=
  { s with
    bus := s.bus.drop 3
    delay := s.delay.drop 3
    trace := s.trace ++ slotLines s.cfg b
    lineDir := .released
    cur := shiftIn s.cur b
    bitIdx := s.bitIdx + 1 }

theorem InSlot.readBit (h : InSlot .level s .s0) (b : Bool) : InSlot .level (s.readBit b) .s0 :=
  ⟨h.busy, h.phase, h.mode, h.position, h.host, fun a ha => h.delays a (List.mem_of_mem_drop ha)⟩

/-- A sampled bit and its slot end, field by field. -/
theorem counted_sampledBit (hb : s.bus = slotReplies b ++ rest) :
    (bitCounted ((s.sampledBit b rest).waited s.cfg.tRecovery)).goto s.phase s.step = s.readBit b := by
  simp [State.readBit, State.sampledBit, State.inSlot, bitCounted, State.record, State.dropDelay, State.setCur,
    State.goto, hb, slotReplies, slotLines, sampledLines, openingLines, delayLine]

theorem InSlot.run_readBit (h : InSlot .level s .s0) (hb : s.bus = slotReplies b ++ rest) (h7 : s.bitIdx.toNat < 7) :
    Sys2Proof.core.run 6 s = .next (s.readBit b) := by
  have hend := (h.sampledBit b rest).step_recover.trans (slotEnd_of_lt_seven h7)
  rw [← counted_sampledBit hb, h.phase, h.position]
  exact run_add 5 1 (h.run_sampledBit hb) (run_succ_of_step 0 hend)

/-- Settles O54: the slot up to its recovery delay, then slot end. -/
theorem aLevelSlotReadsOneBit : Obligations.ALevelSlotReadsOneBit := by
  intro s b rest hbusy hp hk hm hh hd hb h7
  have h : InSlot .level s .s0 := ⟨hbusy, hp, hm, hk, hh, hd⟩
  rw [h.run_readBit hb h7, State.readBit, hb]
  rfl

/-! ### A byte in LEVEL mode -/

/-- LEVEL slots that do not end a byte, one after another. -/
theorem InSlot.run_readBits (h : InSlot .level s .s0) (hb : s.bus = bs.flatMap slotReplies ++ rest)
    (h7 : s.bitIdx.toNat + bs.length < 8) :
    Sys2Proof.core.run (6 * bs.length) s = .next (bs.foldl State.readBit s) ∧
      InSlot .level (bs.foldl State.readBit s) .s0 := by
  induction bs generalizing s with
  | nil => exact ⟨rfl, h⟩
  | cons b bs ih =>
    rw [List.length_cons] at h7
    have hslot : s.bus = slotReplies b ++ (bs.flatMap slotReplies ++ rest) := by simpa using hb
    have hcount : (s.bitIdx + 1).toNat = s.bitIdx.toNat + 1 := toNat_add_one_of_lt (by omega)
    obtain ⟨hrun, hin⟩ := ih (h.readBit b) (by simp [State.readBit, hslot, slotReplies])
      (by rw [State.readBit, hcount]; omega)
    refine ⟨?_, hin⟩
    rw [List.length_cons, Nat.mul_succ, Nat.add_comm]
    exact run_add 6 _ (h.run_readBit hslot (by omega)) hrun

/-- Bits shifted in from the most significant one are the byte (10_state.md R26). -/
theorem foldl_shiftIn_wireBits : ∀ v : Byte, (wireBits v).foldl shiftIn 0 = v := by decide

/-- The fold of slots, field by field. -/
theorem foldl_readBit (s : State) (bs : List Bool) :
    bs.foldl State.readBit s = { s with
      bus := s.bus.drop (3 * bs.length)
      delay := s.delay.drop (3 * bs.length)
      trace := s.trace ++ bs.flatMap (slotLines s.cfg)
      lineDir := if bs = [] then s.lineDir else .released
      cur := bs.foldl shiftIn s.cur
      bitIdx := s.bitIdx + BitVec.ofNat 3 bs.length } := by
  induction bs generalizing s with
  | nil => simp
  | cons b bs ih =>
    rw [List.foldl_cons, ih]
    simp [State.readBit, Nat.mul_add, Nat.add_comm, BitVec.ofNat_add, BitVec.add_assoc, BitVec.add_comm 1#3]

/-- The bits of a byte before the one that ends it. -/
def leadingBits (v : Byte) : List Bool := [v[7], v[6], v[5], v[4], v[3], v[2], v[1]]

theorem length_leadingBits (v : Byte) : (leadingBits v).length = 7 := rfl

theorem wireBits_eq (v : Byte) : wireBits v = leadingBits v ++ [v[0]] := rfl

/-- From a byte begin, the state at the eighth slot end when the bits of `v` have been read. -/
def State.eightBits (s : State) (v : Byte) (rest : List Reply) : State :=
  { s with
    bus := rest
    delay := s.delay.drop 24
    trace := s.trace ++ byteLines s.cfg v
    lineDir := .released
    cur := v
    bitIdx := 7
    phase := .bitRead
    step := .s6 }

theorem readBits_eq_eightBits {v : Byte} (hbit : s.bitIdx = 0) (hcur : s.cur = 0) :
    (((leadingBits v).foldl State.readBit s).sampledBit v[0] rest).waited s.cfg.tRecovery = s.eightBits v rest := by
  have hv : shiftIn ((leadingBits v).foldl shiftIn s.cur) v[0] = v := by
    rw [hcur]
    exact foldl_shiftIn_wireBits v
  have hlines : byteLines s.cfg v = (leadingBits v).flatMap (slotLines s.cfg) ++ slotLines s.cfg v[0] := by
    simp [byteLines, wireBits_eq]
  have hcount : s.bitIdx + BitVec.ofNat 3 (leadingBits v).length = 7 := by rw [hbit]; rfl
  rw [foldl_readBit, hcount]
  simp [State.eightBits, State.sampledBit, State.inSlot, State.record, State.dropDelay, State.setCur, hv, hlines,
    length_leadingBits, slotLines, sampledLines, openingLines, delayLine]

/-- Eight LEVEL slots and what their slot end makes of the byte. -/
theorem InSlot.run_byte {v : Byte} {t : State} (h : InSlot .level s .s0) (hb : s.bus = byteReplies v ++ rest)
    (hbit : s.bitIdx = 0) (hcur : s.cur = 0) (ht : slotEnd (s.eightBits v rest) = .next t) :
    Sys2Proof.core.run 48 s = .next t := by
  have hlead : s.bus = (leadingBits v).flatMap slotReplies ++ (slotReplies v[0] ++ rest) := by
    simpa [byteReplies, wireBits_eq] using hb
  obtain ⟨hrun, hin⟩ := h.run_readBits hlead (by simp [hbit, length_leadingBits])
  have hlast : ((leadingBits v).foldl State.readBit s).bus = slotReplies v[0] ++ rest := by
    rw [foldl_readBit, hlead]
    rfl
  have hend := (hin.sampledBit v[0] rest).step_recover
  rw [← readBits_eq_eightBits hbit hcur] at ht
  have hcfg : (((leadingBits v).foldl State.readBit s).sampledBit v[0] rest).cfg = s.cfg := by
    rw [foldl_readBit]
    rfl
  rw [hcfg] at hend
  exact run_add 42 6 hrun (run_add 5 1 (hin.run_sampledBit hlast) (run_succ_of_step 0 (hend.trans ht)))

/-- Settles O55: slot end with the eight bits read, by whether the byte is a data byte or the fifth. -/
theorem eightLevelSlotsReadOneByte : Obligations.EightLevelSlotsReadOneByte := by
  intro s v rest hbusy hp hk hm hh hd hb hbit hcur h5
  have h : InSlot .level s .s0 := ⟨hbusy, hp, hm, hk, hh, hd⟩
  by_cases h4 : s.byteIdx.toNat < 4
  · rw [h.run_byte hb hbit hcur (slotEnd_of_dataByte rfl h4), if_pos h4, if_pos h4, ← hbit, ← hcur, ← hk]
    rfl
  · rw [h.run_byte hb hbit hcur (slotEnd_of_fifthByte rfl (show s.byteIdx.toNat = 4 by omega)), if_neg h4, if_neg h4,
      ← hbit, ← hcur, ← hk]
    rfl

/-! ### THRESHOLD mode -/

theorem InSlot.step_settleT (h : InSlot .threshold s .s3) :
    step s = .next ((s.inSlot .s4 s.lineDir s.bus 1 [delayLine s.cfg.tSettle]).setPollCnt 0) := by
  obtain ⟨r, hr⟩ := waitEnds_of_delaysAnswered h.delays
  rw [h.step_eq, slotRoutine, exec, execBitReadT_of_s3 h.position hr, ← waited_goto_eq_inSlot]
  rfl

theorem InSlot.step_poll (h : InSlot .threshold s .s5) :
    step s = .next (s.inSlot .s4 s.lineDir s.bus 1 [delayLine s.cfg.tBitPoll]) := by
  obtain ⟨r, hr⟩ := waitEnds_of_delaysAnswered h.delays
  rw [h.step_eq, slotRoutine, exec, execBitReadT_of_s5 h.position hr, waited_goto_eq_inSlot]

/-- A high sample after `s.pollCnt` low ones. -/
theorem InSlot.step_high (h : InSlot .threshold s .s4) (hl : bitLimitsLegal s.cfg = true)
    (hb : s.bus = levelReply true :: rest) :
    step s = .next ((s.inSlot .s6 s.lineDir rest 0 [⟨portWord .sample, .level true⟩]).setCur
      (shiftIn s.cur (decide (s.pollCnt.toNat < s.cfg.bitThreshold.toNat)))) := by
  rw [h.step_eq, slotRoutine, exec, execBitReadT_of_high h.position hl (lineSays_of_levelReply hb) rfl,
    lineTold_of_cons hb]
  rfl

/-- A low sample that is not the last allowed one. -/
theorem InSlot.step_low (h : InSlot .threshold s .s4) (hl : bitLimitsLegal s.cfg = true)
    (hb : s.bus = levelReply false :: rest) (hc : s.pollCnt.toNat + 1 < s.cfg.bitPollMax.toNat) :
    step s = .next ((s.inSlot .s5 s.lineDir rest 0 [⟨portWord .sample, .level false⟩]).setPollCnt (s.pollCnt + 1)) := by
  rw [h.step_eq, slotRoutine, exec, execBitReadT_of_counted h.position hl (lineSays_of_levelReply hb) rfl hc,
    State.countedLow, lineTold_of_cons hb]
  rfl

/-- The lines of `k` low samples, each with the wait that follows it. -/
def lowPollLines (c : Cfg) (k : Nat) : List Exchange :=
  (List.replicate k [⟨portWord .sample, .level false⟩, delayLine c.tBitPoll]).flatten

theorem lowPollLines_succ (c : Cfg) (k : Nat) :
    lowPollLines c (k + 1) = lowPollLines c k ++ [⟨portWord .sample, .level false⟩, delayLine c.tBitPoll] := by
  simp [lowPollLines, List.replicate_succ']

theorem length_lowPollLines (c : Cfg) (k : Nat) : (lowPollLines c k).length = 2 * k := by
  induction k with
  | zero => rfl
  | succ k ih => simp [lowPollLines_succ, ih, Nat.mul_add]

/-- From S0 of a slot in `s`, the state before the next sample when `k` samples were low and `rest` is left of the answers of
the Bus Line. -/
def State.polledLow (s : State) (k : Nat) (rest : List Reply) : State :=
  (s.inSlot .s4 .released rest (k + 2) (openingLines s.cfg ++ delayLine s.cfg.tSettle :: lowPollLines s.cfg k)).setPollCnt
    (BitVec.ofNat 16 k)

theorem InSlot.polledLow (h : InSlot .threshold s pos) (k : Nat) (rest : List Reply) :
    InSlot .threshold (s.polledLow k rest) .s4 :=
  (h.inSlot _ _ _ _ _).setPollCnt _

/-- No count up to a limit wraps. -/
theorem polledLow_pollCnt (hk : k < s.cfg.bitPollMax.toNat) : (s.polledLow k rest).pollCnt.toNat = k := by
  have hlt : k < 2 ^ 16 := hk.trans s.cfg.bitPollMax.isLt
  simpa [State.polledLow] using hlt

/-- The slot up to its first sample. -/
theorem InSlot.run_polledLow_zero (h : InSlot .threshold s .s0) (hb : s.bus = okReply :: okReply :: rest) :
    Sys2Proof.core.run 4 s = .next (s.polledLow 0 rest) := by
  refine run_add 3 1 (h.run_opening hb) ((run_succ_of_step 0 (h.inSlot _ _ _ _ _).step_settleT).trans ?_)
  rw [inSlot_inSlot]
  rfl

/-- A low sample that is not the last allowed one is counted and waited after: two commands. -/
theorem InSlot.run_lowPoll (h : InSlot .threshold s .s0) (hl : bitLimitsLegal s.cfg = true)
    (hk : k + 1 < s.cfg.bitPollMax.toNat) :
    Sys2Proof.core.run 2 (s.polledLow k (levelReply false :: rest)) = .next (s.polledLow (k + 1) rest) := by
  have hu := h.polledLow k (levelReply false :: rest)
  have hcount := polledLow_pollCnt (s := s) (k := k) (rest := levelReply false :: rest) (by omega)
  have hlow := hu.step_low hl rfl (by rwa [hcount])
  refine run_of_step_of_run hlow (run_of_step_of_run ((hu.inSlot _ _ _ _ _).setPollCnt _).step_poll ?_)
  simp [State.polledLow, State.inSlot, State.setPollCnt, lowPollLines_succ, BitVec.ofNat_add]

/-- `k` low samples below the limit take `2k` commands after the first four. -/
theorem InSlot.run_polledLow (h : InSlot .threshold s .s0) (hl : bitLimitsLegal s.cfg = true)
    (hk : k < s.cfg.bitPollMax.toNat)
    (hb : s.bus = okReply :: okReply :: (List.replicate k (levelReply false) ++ rest)) :
    Sys2Proof.core.run (2 * k + 4) s = .next (s.polledLow k rest) := by
  induction k generalizing rest with
  | zero => exact h.run_polledLow_zero hb
  | succ k ih =>
    have hb' : s.bus = okReply :: okReply :: (List.replicate k (levelReply false) ++ levelReply false :: rest) := by
      simpa [List.replicate_succ'] using hb
    rw [show 2 * (k + 1) + 4 = 2 * k + 4 + 2 by omega]
    exact run_add (2 * k + 4) 2 (ih (by omega) hb') (h.run_lowPoll hl hk)

/-- A slot that has read a bit after `k` low samples, its bit not yet counted. -/
def State.polledBit (s : State) (k : Nat) (rest : List Reply) : State :=
  ((s.polledLow k rest).inSlot .s6 .released rest 0 [⟨portWord .sample, .level true⟩]).setCur
    (shiftIn s.cur (decide (k < s.cfg.bitThreshold.toNat)))

theorem InSlot.polledBit (h : InSlot .threshold s pos) (k : Nat) (rest : List Reply) :
    InSlot .threshold (s.polledBit k rest) .s6 :=
  ((h.polledLow k rest).inSlot _ _ _ _ _).setCur _

/-- After `k` low samples a high one gives the bit, and the slot ends. -/
theorem InSlot.run_high (h : InSlot .threshold s .s0) (hl : bitLimitsLegal s.cfg = true)
    (hk : k < s.cfg.bitPollMax.toNat) (h7 : s.bitIdx.toNat < 7)
    (hb : s.bus = okReply :: okReply :: (List.replicate k (levelReply false) ++ levelReply true :: rest)) :
    Sys2Proof.core.run (2 * (k + 1) + 4) s =
      .next ((bitCounted ((s.polledBit k rest).waited s.cfg.tRecovery)).goto .bitRead .s0) := by
  have hu := h.polledLow k (levelReply true :: rest)
  have hhigh := hu.step_high hl rfl
  rw [polledLow_pollCnt hk] at hhigh
  have hend := (h.polledBit k rest).step_recover.trans (slotEnd_of_lt_seven h7)
  rw [show 2 * (k + 1) + 4 = 2 * k + 4 + 2 by omega]
  exact run_add (2 * k + 4) 2 (h.run_polledLow hl hk hb) (run_of_step_of_run hhigh (run_of_step_of_run hend rfl))

/-- After `k` low samples the last allowed one is Timeout. -/
theorem InSlot.run_slotTimeout (h : InSlot .threshold s .s0) (hl : bitLimitsLegal s.cfg = true)
    (hk : k + 1 = s.cfg.bitPollMax.toNat)
    (hb : s.bus = okReply :: okReply :: (List.replicate k (levelReply false) ++ levelReply false :: rest)) :
    Sys2Proof.core.run (2 * (k + 1) + 3) s =
      .next ((s.polledLow k (levelReply false :: rest)).countedLow.raise .timeout) := by
  have hu := h.polledLow k (levelReply false :: rest)
  have hcount := polledLow_pollCnt (s := s) (k := k) (rest := levelReply false :: rest) (by omega)
  have hlast := hu.step_eq.trans
    (execBitReadT_of_timeout hu.position hl (lineSays_of_levelReply rfl) rfl (by rwa [hcount]))
  rw [show 2 * (k + 1) + 3 = 2 * k + 4 + 1 by omega]
  exact run_add (2 * k + 4) 1 (h.run_polledLow hl (by omega) hb) (run_succ_of_step 0 hlast)

theorem bitPollMax_ne_zero {c : Cfg} (hl : bitLimitsLegal c = true) : c.bitPollMax.toNat ≠ 0 := by
  obtain ⟨hmax, -, -⟩ := of_decide_eq_true hl
  omega

/-- Settles O56: the high sample, or the last allowed low one, comes after the low ones that were counted. -/
theorem aThresholdSlotCountsLowSamples : Obligations.AThresholdSlotCountsLowSamples := by
  intro s k rest hbusy hp hk hm hh hd hl h7
  have h : InSlot .threshold s .s0 := ⟨hbusy, hp, hm, hk, hh, by simp [delaysAnswered, hd]⟩
  refine ⟨fun hlt hb => ?_, fun hlast hb => ?_⟩
  · have hb' : s.bus = okReply :: okReply :: (List.replicate k (levelReply false) ++ levelReply true :: rest) := by
      simpa [okReply_eq] using hb
    refine ⟨_, h.run_high hl hlt h7 hb', ?_, rfl, polledLow_pollCnt (rest := rest) hlt, rfl, rfl, rfl, rfl, hbusy⟩
    simp [State.polledBit, State.polledLow, State.inSlot, openingLines, length_lowPollLines, Nat.mul_add]
  · obtain ⟨n, rfl⟩ := Nat.exists_eq_add_one_of_ne_zero (hlast ▸ bitPollMax_ne_zero hl)
    have hb' : s.bus = okReply :: okReply :: (List.replicate n (levelReply false) ++ levelReply false :: rest) := by
      simpa [okReply_eq, List.replicate_succ'] using hb
    refine ⟨_, h.run_slotTimeout hl hlast hb', ?_, rfl, rfl, rfl, ?_, ?_, ?_⟩
    · simp [State.polledLow, State.inSlot, openingLines, length_lowPollLines, Nat.mul_add]
    · simp [State.polledLow, State.inSlot]
    · simp [State.polledLow, State.inSlot]
    · simp [State.polledLow, State.inSlot]

end Sys2Proof.Machine
end

section
/-! Proofs of the family of 43_frame_checksum_read.md: START and CHECKSUM_VALIDATE as whole next states, and what the checksum
says of CSUM and of a reported success (R161, R162, R165, R167). -/

namespace Sys2Proof.Machine

variable {s t : State}

/-! ### START and CHECKSUM_VALIDATE -/

theorem execStart_of_begin {v : HostWord} (hv : v[0] = true) (hb : s.busy = false) : execStart v s = .next s.begin := by
  simp [execStart, hv, hb]

theorem execStart_of_ignored {v : HostWord} (h : v[0] = false ∨ s.busy = true) : execStart v s = .next s := by
  obtain hv | hb := h
  · simp [execStart, hv]
  · simp [execStart, hb]

/-- Settles O24: `State.begin` is the listed writes. -/
theorem startResult : Obligations.StartResult :=
  fun _ _ => ⟨execStart_of_begin, execStart_of_ignored⟩

theorem execChecksumValidate_of_equal (hk : s.step = .s0) (hc : s.csum = s.frame[4]) :
    execChecksumValidate s = .next (s.goto .decode .s0) := by
  simp [execChecksumValidate, hk, checksumEqual, hc]

theorem execChecksumValidate_of_different (hk : s.step = .s0) (hc : s.csum ≠ s.frame[4]) :
    execChecksumValidate s = .next (s.raise .checksumMismatch) := by
  simp [execChecksumValidate, hk, checksumEqual, hc]

/-- Settles O21: S0 by the comparison, and no other STEP is one of the routine's. -/
theorem checksumValidateResult : Obligations.ChecksumValidateResult := by
  refine ⟨fun s hk => ⟨execChecksumValidate_of_equal hk, execChecksumValidate_of_different hk⟩, fun s h0 => ?_⟩
  rw [exec, execChecksumValidate]
  cases hk : s.step with
  | s0 => exact absurd hk h0
  | _ => rfl

/-! ### The sum and the success it lets through -/

/-- The sum of all four data bytes as an integer: carries out of bit 7 are gone (R162). -/
theorem toNat_dataSum_four (f : Vector Byte 5) :
    (dataSum f 4).toNat = (f[0].toNat + f[1].toNat + f[2].toNat + f[3].toNat) % 256 := by
  simp [dataSum]

/-- At CHECKSUM every data byte has been added. -/
theorem csum_eq_of_checksum (hp : PositionInv s) (hw : WorkInv s) (hph : s.phase = .checksum) :
    s.csum = dataSum s.frame 4 := by
  have hb : s.busy = true := hp.busyIff.2 (by simp [hph])
  have hind := hp.indices
  simp only [IndicesFit, hph] at hind
  obtain ⟨h5, -⟩ := hind
  rw [hw.sum hb, h5]
  rfl

/-- Settles O46: the step keeps the invariant, which at CHECKSUM fixes CSUM. -/
theorem checksumIsTheSumOfTheDataBytes : Obligations.ChecksumIsTheSumOfTheDataBytes := by
  intro s t hi h hph
  have hi' := step_keeps_inv hi h
  rw [csum_eq_of_checksum hi'.position hi'.work hph, toNat_dataSum_four]

/-- The block reports a success. -/
def ReportsSuccess (s : State) : Prop := s.done = true ∧ s.kind = .ok

/-- The one row that reports a success anew is DECODE's, which leaves FRAME as it is. -/
theorem turn_reportsSuccess (hd : s.done = false) (h : Turn s t) (ht : ReportsSuccess t) :
    s.phase = .decode ∧ t.frame = s.frame := by
  obtain ⟨hdone, hkind⟩ := ht
  cases h
  case decoded hb hp hk => exact ⟨hp, rfl⟩
  case lowFails | releaseFails | sampleFails | presenceTimeout | thresholdTimeout | sumBad => cases hkind
  all_goals simp [hd] at hdone

/-- Of what else a step can do, START and the reset input clear DONE, and the host's accesses keep it. -/
theorem step_reportsSuccess (hd : s.done = false) (h : step s = .next t) (ht : ReportsSuccess t) :
    s.phase = .decode ∧ t.frame = s.frame := by
  obtain ⟨u, hu, h⟩ := step_cases h
  have hdu : u.done = false := by obtain rfl | ⟨e, rest, -, rfl⟩ := hu <;> exact hd
  have hdecode : u.phase = .decode ∧ t.frame = u.frame := by
    obtain hturn | ⟨-, rfl⟩ | ⟨r, rfl⟩ | rfl | rfl := h
    · exact turn_reportsSuccess hdu (turn_of_engineTurn hturn) ht
    · cases ht.1
    · exact absurd (hdu.symm.trans ht.1) (by decide)
    · exact absurd (hdu.symm.trans ht.1) (by decide)
    · cases ht.1
  obtain rfl | ⟨e, rest, -, rfl⟩ := hu <;> exact hdecode

/-- After a success the line is released, so STATUS is DONE alone (R167). -/
theorem StateInv.status_of_success (hi : StateInv s) (hs : ReportsSuccess s) : readReg s .status = 0x00000002#32 := by
  obtain ⟨hdone, hkind⟩ := hs
  have hbusy : s.busy = false := by simpa [hdone] using hi.position.notBoth
  have hidle : s.phase = .idle := by simpa [hbusy] using hi.position.busyIff
  have hline := hi.line
  simp only [LineInv, hidle] at hline
  have hreleased : s.lineDir = .released := hline.2 (by simp [hkind])
  simp [readReg, statusWord, hbusy, hdone, hkind, hreleased, Kind.code, LineDir.code]

/-- Settles O47: the step is DECODE's, and what the registers then hold is the invariant's of the state after it. -/
theorem successIsReportedOnlyForAValidFrame : Obligations.SuccessIsReportedOnlyForAValidFrame := by
  intro s t hi hd h hdone hkind
  have hi' := step_keeps_inv hi h
  obtain ⟨hdecode, hframe⟩ := step_reportsSuccess hd h ⟨hdone, hkind⟩
  obtain ⟨hpayload, hrh, htemp, hsum⟩ := hi'.result.success hdone hkind
  refine ⟨hdecode, hframe, ?_, hpayload, hrh, htemp, hi'.status_of_success ⟨hdone, hkind⟩,
    hi'.result.faultZero (by simp [hkind])⟩
  rw [← hsum, toNat_dataSum_four]

end Sys2Proof.Machine
end

section
/-! Proofs of the family of 43_frame_checksum_read.md: FRAME_READ and the whole transaction in LEVEL mode (R160, R163, R164). -/

namespace Sys2Proof.Machine

variable {s t : State} {p : Phase} {pos : Step} {k : Nat} {f : Vector Byte 5} {rest : List Reply}

/-! ### Where the engine stands -/

/-- The engine stands at this position, left alone by the host and with every wait answered. -/
structure EngineAt (s : State) (p : Phase) (pos : Step) : Prop where
  busy : s.busy = true
  phase : s.phase = p
  position : s.step = pos
  host : s.host = []
  delays : delaysAnswered s

/-! A step there is the routine's. -/

theorem EngineAt.step_reset (h : EngineAt s .reset pos) : step s = execReset s := by
  simp [step_of_no_host h.host, engineTurn, h.busy, h.phase]

theorem EngineAt.step_postReset (h : EngineAt s .postReset pos) : step s = execPostReset s := by
  simp [step_of_no_host h.host, engineTurn, h.busy, h.phase]

theorem EngineAt.step_checksum (h : EngineAt s .checksum pos) : step s = execChecksumValidate s := by
  simp [step_of_no_host h.host, engineTurn, h.busy, h.phase]

theorem EngineAt.step_decode (h : EngineAt s .decode pos) : step s = execDecode s := by
  simp [step_of_no_host h.host, engineTurn, h.busy, h.phase]

theorem EngineAt.inPresence (h : EngineAt s .presence pos) : InPresence s pos :=
  ⟨h.busy, h.phase, h.position, h.host, h.delays⟩

/-- What exchanges do to `s`, POLL_CNT apart: the engine has moved, `rest` is left of the Bus Line's answers, `n` waits are
over, `lines` have been added to the trace. -/
def State.exchanged (s : State) (p : Phase) (pos : Step) (line : LineDir) (rest : List Reply) (n : Nat)
    (lines : List Exchange) : State :=
  { s with
    bus := rest
    delay := s.delay.drop n
    trace := s.trace ++ lines
    lineDir := line
    phase := p
    step := pos }

theorem EngineAt.exchanged (h : EngineAt s p pos) (p' : Phase) (pos' : Step) (line : LineDir) (rest : List Reply)
    (n : Nat) (lines : List Exchange) : EngineAt (s.exchanged p' pos' line rest n lines) p' pos' where
  busy := h.busy
  phase := rfl
  position := rfl
  host := h.host
  delays := fun a ha => h.delays a (List.mem_of_mem_drop ha)

theorem EngineAt.setPollCnt (h : EngineAt s p pos) (n : BitVec 16) : EngineAt (s.setPollCnt n) p pos :=
  ⟨h.busy, h.phase, h.position, h.host, h.delays⟩

/-- Exchanges one after another. -/
theorem exchanged_exchanged (s : State) (p p' : Phase) (k k' : Step) (l l' : LineDir) (b b' : List Reply) (n n' : Nat)
    (x x' : List Exchange) :
    (s.exchanged p k l b n x).exchanged p' k' l' b' n' x' = s.exchanged p' k' l' b' (n + n') (x ++ x') := by
  simp [State.exchanged]

theorem setPollCnt_exchanged (s : State) (c : BitVec 16) (p : Phase) (k : Step) (l : LineDir) (b : List Reply) (n : Nat)
    (x : List Exchange) : (s.setPollCnt c).exchanged p k l b n x = (s.exchanged p k l b n x).setPollCnt c := rfl

/-- A wait, as an exchange. -/
theorem waited_goto_eq_exchanged (s : State) (d : Duration) (p : Phase) (k : Step) :
    (s.waited d).goto p k = s.exchanged p k s.lineDir s.bus 1 [delayLine d] := by
  simp [State.exchanged, State.goto, State.record, State.dropDelay, delayLine]

/-! ### RESET, PRESENCE and POST_RESET -/

/-- The lines of RESET. -/
def resetLines (c : Cfg) : List Exchange :=
  [⟨portWord .driveLow, .ok⟩, delayLine c.tResetLow, ⟨portWord .release, .ok⟩]

/-- The phase after RESET (R120). -/
def phaseAfterReset (c : Cfg) : Phase := if c.presenceCheck then .presence else .postReset

theorem EngineAt.step_resetLow (h : EngineAt s .reset .s0) (hb : s.bus = okReply :: rest) :
    step s = .next (s.exchanged .reset .s1 .low rest 0 [⟨portWord .driveLow, .ok⟩]) := by
  rw [h.step_reset, execReset_of_s0 h.position, driveLow_of_ok (lineSays_of_okReply hb), lineTold_of_cons hb]
  rfl

theorem EngineAt.step_resetHold (h : EngineAt s .reset .s1) :
    step s = .next (s.exchanged .reset .s2 s.lineDir s.bus 1 [delayLine s.cfg.tResetLow]) := by
  obtain ⟨r, hr⟩ := waitEnds_of_delaysAnswered h.delays
  rw [h.step_reset, execReset_of_s1 h.position hr, waited_goto_eq_exchanged]

theorem EngineAt.step_resetRelease (h : EngineAt s .reset .s2) (hb : s.bus = okReply :: rest) :
    step s = .next (s.exchanged (phaseAfterReset s.cfg) .s0 .released rest 0 [⟨portWord .release, .ok⟩]) := by
  rw [h.step_reset, execReset_of_s2 h.position, release_of_ok (lineSays_of_okReply hb), afterResetPulse_eq_goto,
    lineTold_of_cons hb]
  rfl

theorem EngineAt.run_reset (h : EngineAt s .reset .s0) (hb : s.bus = okReply :: okReply :: rest) :
    Sys2Proof.core.run 3 s = .next (s.exchanged (phaseAfterReset s.cfg) .s0 .released rest 1 (resetLines s.cfg)) := by
  have h1 := h.exchanged .reset .s1 .low (okReply :: rest) 0 [⟨portWord .driveLow, .ok⟩]
  have h2 := h1.exchanged .reset .s2 .low (okReply :: rest) 1 [delayLine s.cfg.tResetLow]
  refine run_of_step_of_run (h.step_resetLow hb) ?_
  refine run_of_step_of_run h1.step_resetHold ?_
  refine run_of_step_of_run (h2.step_resetRelease rfl) ?_
  simp only [exchanged_exchanged]
  rfl

/-- The Bus Line's answers over PRESENCE, if there is one. -/
def presenceReplies (c : Cfg) (k : Nat) : List Reply :=
  if c.presenceCheck then List.replicate k (levelReply true) ++ [levelReply false] else []

theorem beforeFrameReplies_eq (c : Cfg) (k : Nat) :
    beforeFrameReplies c k = okReply :: okReply :: presenceReplies c k := rfl

theorem presenceLines_of_check {c : Cfg} (hc : c.presenceCheck = true) (k : Nat) :
    presenceLines c k =
      delayLine c.tPresenceDelay :: (highPollLines c k ++ [⟨portWord .sample, .level false⟩]) := by
  rw [presenceLines, if_pos hc, highPollLines]

/-- The low sample after `k` high ones, as an exchange. -/
theorem polledHigh_low_eq_exchanged (hc : s.cfg.presenceCheck = true) (k : Nat) (rest : List Reply) :
    ((s.polledHigh k (levelReply false :: rest)).lineTold .sample (.level false)).goto .postReset .s0 =
      (s.exchanged .postReset .s0 s.lineDir rest (k + 1) (presenceLines s.cfg k)).setPollCnt (BitVec.ofNat 16 k) := by
  rw [lineTold_of_cons rfl, presenceLines_of_check hc]
  simp [State.polledHigh, State.exchanged, State.goto, State.setPollCnt]

/-- From the end of RESET to POST_RESET, by PRESENCE or without a command. -/
theorem EngineAt.run_presenceLines (h : EngineAt s (phaseAfterReset s.cfg) .s0)
    (hb : s.bus = presenceReplies s.cfg k ++ rest) (hk : s.cfg.presenceCheck = true → k < s.cfg.presencePolls.toNat) :
    ∃ n c, Sys2Proof.core.run (presenceLines s.cfg k).length s =
      .next ((s.exchanged .postReset .s0 s.lineDir rest n (presenceLines s.cfg k)).setPollCnt c) := by
  cases hc : s.cfg.presenceCheck with
  | true =>
    have hin : InPresence s .s0 := EngineAt.inPresence (by simpa [phaseAfterReset, hc] using h)
    have hb' : s.bus = List.replicate k (levelReply true) ++ levelReply false :: rest := by
      simpa [presenceReplies, hc] using hb
    have hlength : (presenceLines s.cfg k).length = 2 * (k + 1) := by
      simp [presenceLines_of_check hc, length_highPollLines, Nat.mul_add]
    rw [hlength, hin.run_low (hk hc) hb', polledHigh_low_eq_exchanged hc]
    exact ⟨_, _, rfl⟩
  | false =>
    have hphase : s.phase = .postReset := by simpa [phaseAfterReset, hc] using h.phase
    have hb' : s.bus = rest := by simpa [presenceReplies, hc] using hb
    refine ⟨0, s.pollCnt, ?_⟩
    simp [presenceLines, hc, State.exchanged, State.setPollCnt, ← hphase, ← h.position, ← hb']

theorem EngineAt.step_postResetWait (h : EngineAt s .postReset .s0) :
    step s = .next (s.exchanged .bitRead .s0 s.lineDir s.bus 1 [delayLine s.cfg.tPostReset]) := by
  obtain ⟨r, hr⟩ := waitEnds_of_delaysAnswered h.delays
  rw [h.step_postReset, execPostReset_of_s0 h.position hr, waited_goto_eq_exchanged]

/-- The transaction up to its frame: one step for each line (R163). -/
theorem EngineAt.run_beforeFrame (h : EngineAt s .reset .s0) (hb : s.bus = beforeFrameReplies s.cfg k ++ rest)
    (hk : s.cfg.presenceCheck = true → k < s.cfg.presencePolls.toNat) :
    ∃ n c, Sys2Proof.core.run (beforeFrameLines s.cfg k).length s =
      .next ((s.exchanged .bitRead .s0 .released rest n (beforeFrameLines s.cfg k)).setPollCnt c) := by
  have hreset := h.run_reset (by simpa [beforeFrameReplies_eq] using hb)
  have h1 := h.exchanged (phaseAfterReset s.cfg) .s0 .released (presenceReplies s.cfg k ++ rest) 1 (resetLines s.cfg)
  obtain ⟨n, c, hpresence⟩ := h1.run_presenceLines rfl hk
  have h2 := (h1.exchanged .postReset .s0 .released rest n (presenceLines s.cfg k)).setPollCnt c
  have hwait := run_succ_of_step 0 h2.step_postResetWait
  have hlength : (beforeFrameLines s.cfg k).length = 3 + (presenceLines s.cfg k).length + 1 := by
    simp [beforeFrameLines]
    omega
  refine ⟨1 + n + 1, c, ?_⟩
  rw [hlength]
  refine run_add _ 1 (run_add 3 _ hreset hpresence) (hwait.trans ?_)
  simp only [exchanged_exchanged, setPollCnt_exchanged]
  rfl

/-! ### FRAME_READ -/

/-- The engine stands at the begin of byte `k` of a frame (R143). -/
structure ByteBegin (s : State) (k : Nat) : Prop where
  slot : InSlot .level s .s0
  byteIdx : s.byteIdx.toNat = k
  bitIdx : s.bitIdx = 0
  cur : s.cur = 0

/-- A byte has been read (R143): it is stored, and added to CSUM unless it is the fifth. -/
def State.readByte (s : State) (v : Byte) (rest : List Reply) : State :=
  { s with
    bus := rest
    delay := s.delay.drop 24
    trace := s.trace ++ byteLines s.cfg v
    lineDir := .released
    frame := storeFrame s.frame s.byteIdx v
    csum := if s.byteIdx.toNat < 4 then s.csum + v else s.csum
    byteIdx := s.byteIdx + 1
    phase := if s.byteIdx.toNat < 4 then .bitRead else .checksum }

/-- After a data byte the next byte begins. -/
theorem ByteBegin.readByte (h : ByteBegin s k) (hk : k < 4) (v : Byte) (rest : List Reply) :
    ByteBegin (s.readByte v rest) (k + 1) where
  slot := ⟨h.slot.busy, if_pos (h.byteIdx.symm ▸ hk), h.slot.mode, h.slot.position, h.slot.host,
    fun a ha => h.slot.delays a (List.mem_of_mem_drop ha)⟩
  byteIdx := by
    rw [← h.byteIdx]
    exact toNat_add_one_of_lt (by rw [h.byteIdx]; omega)
  bitIdx := h.bitIdx
  cur := h.cur

theorem ByteBegin.run_readByte {v : Byte} (h : ByteBegin s k) (hk : k < 5) (hb : s.bus = byteReplies v ++ rest) :
    Sys2Proof.core.run 48 s = .next (s.readByte v rest) := by
  obtain ⟨⟨busy, phase, mode, position, host, delays⟩, byteIdx, bitIdx, cur⟩ := h
  exact eightLevelSlotsReadOneByte s v rest busy phase position mode host delays hb bitIdx cur (byteIdx ▸ hk)

/-- A whole frame has been read (R160, R161). -/
def State.readFrame (s : State) (f : Vector Byte 5) (rest : List Reply) : State :=
  { s with
    bus := rest
    delay := s.delay.drop 120
    trace := s.trace ++ frameLines s.cfg f
    lineDir := .released
    frame := f
    csum := s.csum + f[0] + f[1] + f[2] + f[3]
    byteIdx := 5
    phase := .checksum }

/-- Stores at every index leave nothing of the old frame. -/
theorem storeFrame_all (g f : Vector Byte 5) :
    storeFrame (storeFrame (storeFrame (storeFrame (storeFrame g 0#3 f[0]) 1#3 f[1]) 2#3 f[2]) 3#3 f[3]) 4#3 f[4] = f := by
  ext j hj
  have hj' : j = 0 ∨ j = 1 ∨ j = 2 ∨ j = 3 ∨ j = 4 := by omega
  obtain rfl | rfl | rfl | rfl | rfl := hj' <;> simp [storeFrame_get]

/-- Five bytes one after another, field by field. -/
theorem readByte_five_eq_readFrame (hx : s.byteIdx = 0) (f : Vector Byte 5) (b0 b1 b2 b3 rest : List Reply) :
    ((((s.readByte f[0] b0).readByte f[1] b1).readByte f[2] b2).readByte f[3] b3).readByte f[4] rest =
      s.readFrame f rest := by
  simp [State.readByte, State.readFrame, hx, storeFrame_all, frameLines]

/-- FRAME_READ: forty slots of six steps. -/
theorem ByteBegin.run_frame (h : ByteBegin s 0) (hb : s.bus = frameReplies f ++ rest) :
    Sys2Proof.core.run 240 s = .next (s.readFrame f rest) := by
  have hb0 : s.bus = byteReplies f[0] ++
      (byteReplies f[1] ++ (byteReplies f[2] ++ (byteReplies f[3] ++ (byteReplies f[4] ++ rest)))) := by
    simpa [frameReplies] using hb
  have h1 := h.readByte (by decide) f[0]
    (byteReplies f[1] ++ (byteReplies f[2] ++ (byteReplies f[3] ++ (byteReplies f[4] ++ rest))))
  have h2 := h1.readByte (by decide) f[1] (byteReplies f[2] ++ (byteReplies f[3] ++ (byteReplies f[4] ++ rest)))
  have h3 := h2.readByte (by decide) f[2] (byteReplies f[3] ++ (byteReplies f[4] ++ rest))
  have h4 := h3.readByte (by decide) f[3] (byteReplies f[4] ++ rest)
  rw [← readByte_five_eq_readFrame (BitVec.eq_of_toNat_eq h.byteIdx)]
  refine run_add 48 192 (h.run_readByte (by decide) hb0) ?_
  refine run_add 48 144 (h1.run_readByte (by decide) rfl) ?_
  refine run_add 48 96 (h2.run_readByte (by decide) rfl) ?_
  exact run_add 48 48 (h3.run_readByte (by decide) rfl) (h4.run_readByte (by decide) rfl)

theorem ByteBegin.readFrame (h : ByteBegin s 0) (f : Vector Byte 5) (rest : List Reply) :
    EngineAt (s.readFrame f rest) .checksum .s0 :=
  ⟨h.slot.busy, rfl, h.slot.position, h.slot.host, fun a ha => h.slot.delays a (List.mem_of_mem_drop ha)⟩

/-! ### The two ends -/

theorem execDecode_of_s0 (hk : s.step = .s0) : execDecode s = .next (s.succeed s.frame[0] (signMagnitude s.frame[2])) := by
  rw [execDecode, hk]

/-- An equal checksum and DECODE. -/
theorem EngineAt.run_success (h : EngineAt s .checksum .s0) (hc : s.csum = s.frame[4]) :
    Sys2Proof.core.run 2 s = .next (s.succeed s.frame[0] (signMagnitude s.frame[2])) := by
  have hdecode : EngineAt (s.goto .decode .s0) .decode .s0 := ⟨h.busy, rfl, rfl, h.host, h.delays⟩
  refine run_of_step_of_run (h.step_checksum.trans (execChecksumValidate_of_equal h.position hc)) ?_
  exact run_succ_of_step 0 (hdecode.step_decode.trans (execDecode_of_s0 rfl))

/-- A different checksum, after which the engine does nothing. -/
theorem EngineAt.run_mismatch (h : EngineAt s .checksum .s0) (hc : s.csum ≠ s.frame[4]) :
    Sys2Proof.core.run 2 s = .next (s.raise .checksumMismatch) := by
  have hidle : step (s.raise .checksumMismatch) = .next (s.raise .checksumMismatch) :=
    (step_of_no_host (s := s.raise _) h.host).trans (engineTurn_of_idle rfl)
  refine run_of_step_of_run (h.step_checksum.trans (execChecksumValidate_of_different h.position hc)) ?_
  exact run_succ_of_step 0 hidle

/-! ### The whole transaction -/

/-- The frame `f` has been read and summed in a transaction whose trace is `lines`; the comparison is next. -/
structure FrameSummed (s : State) (f : Vector Byte 5) (lines : List Exchange) (rest : List Reply) : Prop where
  stands : EngineAt s .checksum .s0
  frame : s.frame = f
  csum : s.csum = f[0] + f[1] + f[2] + f[3]
  trace : s.trace = lines
  bus : s.bus = rest
  line : s.lineDir = .released

/-- START, READ_RAW up to its comparison (R163). -/
theorem run_to_frameSummed {v : HostWord} (hidle : s.busy = false) (hm : s.cfg.sampleMode = .level) (hv : v[0] = true)
    (hh : s.host = [.store s.cfg.oweBase 4 v]) (hd : delaysAnswered s)
    (hk : s.cfg.presenceCheck = true → k < s.cfg.presencePolls.toNat)
    (hb : s.bus = beforeFrameReplies s.cfg k ++ frameReplies f ++ rest) :
    ∃ t, Sys2Proof.core.run ((beforeFrameLines s.cfg k).length + 241) s = .next t ∧
      FrameSummed t f (beforeFrameLines s.cfg k ++ frameLines s.cfg f) rest := by
  have hstart : step s = .next { s with host := [] }.begin :=
    (step_of_store_ctrl hv hh).trans (execStart_of_begin hv hidle)
  have hreset : EngineAt { s with host := [] }.begin .reset .s0 := ⟨rfl, rfl, rfl, rfl, hd⟩
  obtain ⟨n, c, hbefore⟩ := hreset.run_beforeFrame (rest := frameReplies f ++ rest) (by simpa using hb) hk
  have hin := (hreset.exchanged .bitRead .s0 .released (frameReplies f ++ rest) n (beforeFrameLines s.cfg k)).setPollCnt c
  have hbegin : ByteBegin _ 0 := ⟨⟨hin.busy, hin.phase, hm, hin.position, hin.host, hin.delays⟩, rfl, rfl, rfl⟩
  refine ⟨_, run_of_step_of_run hstart (run_add _ 240 hbefore (hbegin.run_frame rfl)),
    hbegin.readFrame f rest, rfl, ?_, rfl, rfl, rfl⟩
  simp [State.readFrame, State.exchanged, State.setPollCnt]

/-- Settles O58: the frame is read and summed, and the comparison decides which of the two ends follows. -/
theorem aWholeLevelTransactionReportsItsFrame : Obligations.AWholeLevelTransactionReportsItsFrame := by
  intro s v k f rest hidle hm hv hh hd hk hb
  obtain ⟨u, hrun, hstands, rfl, hcsum, htrace, hbus, hline⟩ := run_to_frameSummed hidle hm hv hh hd hk hb
  by_cases hc : u.frame[4] = u.frame[0] + u.frame[1] + u.frame[2] + u.frame[3]
  · exact ⟨_, run_add _ 2 hrun (hstands.run_success (hcsum.trans hc.symm)), htrace, rfl, hbus, rfl, rfl, rfl, hline,
      fun _ => ⟨rfl, rfl, rfl, rfl⟩, fun hne => absurd hc hne⟩
  · exact ⟨_, run_add _ 2 hrun (hstands.run_mismatch (fun e => hc (e.symm.trans hcsum))), htrace, rfl, hbus, rfl, rfl, rfl,
      hline, fun he => absurd he hc, fun _ => ⟨rfl, rfl, rfl, rfl⟩⟩

end Sys2Proof.Machine
end

section
/-! Proofs of the family of 44_reading_decoder.md: DECODE and the temperature (R180 to R183, R167). -/

namespace Sys2Proof.Machine

/-! ### Sign and magnitude -/

/-- The magnitude `m` of a sign-magnitude byte, its low seven bits, zero-extended (R180). -/
def magnitude (b : Byte) : Byte := (b.extractLsb' 0 7).zeroExtend 8

theorem toNat_magnitude (b : Byte) : (magnitude b).toNat = b.toNat % 128 := by
  have hm : b.toNat % 128 % 256 = b.toNat % 128 := by omega
  simpa [magnitude] using hm

/-- A magnitude is below 128, so two's complement reads it as it is. -/
theorem toInt_magnitude (b : Byte) : (magnitude b).toInt = ((b.toNat % 128 : Nat) : Int) := by
  have hm := toNat_magnitude b
  rw [BitVec.toInt_eq_toNat_of_lt (by omega), hm]

theorem toInt_neg_magnitude (b : Byte) : (-magnitude b).toInt = -((b.toNat % 128 : Nat) : Int) := by
  have hmin : magnitude b ≠ BitVec.intMin 8 := fun h => by
    have hm := toNat_magnitude b
    rw [h, show (BitVec.intMin 8).toNat = 128 by decide] at hm
    omega
  rw [BitVec.toInt_neg_of_ne_intMin hmin, toInt_magnitude]

/-- `(256 - m) mod 256` is the byte's negation (R180). -/
theorem signMagnitude_of_negative {b : Byte} (hs : b[7] = true) : signMagnitude b = -magnitude b := by
  apply BitVec.eq_of_toNat_eq
  simp [signMagnitude, hs, magnitude, BitVec.toNat_neg]

theorem signMagnitude_of_nonnegative {b : Byte} (hs : b[7] = false) : signMagnitude b = magnitude b := by
  simp [signMagnitude, hs, magnitude]

theorem signMagnitude_eq (b : Byte) : signMagnitude b = if b[7] then -magnitude b else magnitude b := by
  split
  case isTrue hs => exact signMagnitude_of_negative hs
  case isFalse hs => exact signMagnitude_of_nonnegative (Bool.eq_false_of_not_eq_true hs)

theorem toInt_signMagnitude (b : Byte) :
    (signMagnitude b).toInt = if b[7] then -((b.toNat % 128 : Nat) : Int) else ((b.toNat % 128 : Nat) : Int) := by
  rw [signMagnitude_eq, apply_ite BitVec.toInt, toInt_neg_magnitude, toInt_magnitude]

theorem toNat_signMagnitude_of_negative {b : Byte} (hs : b[7] = true) :
    (signMagnitude b).toNat = (256 - b.toNat % 128) % 256 := by
  rw [signMagnitude_of_negative hs, BitVec.toNat_neg, toNat_magnitude]

/-- 0x80 would be -128, and no magnitude reaches 128 (R182). -/
theorem signMagnitude_ne_0x80 (b : Byte) : signMagnitude b ≠ 0x80 := by
  intro h
  have hint := toInt_signMagnitude b
  rw [h, show (0x80 : Byte).toInt = -128 by decide] at hint
  split at hint <;> omega

/-! ### DECODE -/

theorem execDecode_of_not_s0 {s : State} (h0 : s.step ≠ .s0) : execDecode s = .refused .stepNeverTaken := by
  rw [execDecode]
  cases hk : s.step with
  | s0 => exact absurd hk h0
  | _ => rfl

/-- Settles O22: S0 is success completion with `signMagnitude` by the sign, and no other STEP is one of the routine's. -/
theorem decodeResult : Obligations.DecodeResult := by
  refine ⟨fun s hk => ?_, fun s => execDecode_of_not_s0⟩
  rw [exec, execDecode_of_s0 hk, signMagnitude_eq]
  rfl

/-- Settles O23: the reading by its sign and its magnitude, TEMP by DECODE's success completion. -/
theorem temperatureIsSignTimesMagnitude : Obligations.TemperatureIsSignTimesMagnitude := by
  refine ⟨fun b => ⟨toInt_signMagnitude b, toNat_signMagnitude_of_negative, signMagnitude_ne_0x80 b⟩, ?_, by decide⟩
  exact fun s hk => ⟨_, execDecode_of_s0 hk, State.succeed_temp ..⟩

end Sys2Proof.Machine
end

section
/-! Proofs of the family of 60_exceptions.md: failure completion and what it leaves visible (R195 to R197, R199), where a
transaction can end in which kind (R191 to R194), and what the host cannot do meanwhile (R203, R205, R228). -/

namespace Sys2Proof.Machine

variable {s t : State} {k : Kind}

/-! ### Failure completion and the idle state -/

/-- Settles O25: KIND and FAULT by the error raised, everything else the same for all three. -/
theorem raiseIsFailureCompletion : Obligations.RaiseIsFailureCompletion := by
  intro s x
  cases x <;> rfl

/-- What LINE_DIR can be while BUSY = 0 (R195, R199). -/
theorem StateInv.lineDir_of_idle (hi : StateInv s) (hb : s.busy = false) :
    s.lineDir ≠ .low ∧ (s.kind ≠ .busFault → s.lineDir = .released) := by
  have hidle : s.phase = .idle := by simpa [hb] using hi.position.busyIff
  simpa [LineInv, hidle] using hi.line

/-- Settles O41: the invariant's line part between two transactions. -/
theorem theLineIsNeverLowWhileIdle : Obligations.TheLineIsNeverLowWhileIdle := by
  intro s hs hb
  obtain ⟨hlow, hreleased⟩ := (reachable_inv hs).lineDir_of_idle hb
  refine ⟨?_, hreleased⟩
  cases hl : s.lineDir with
  | released => exact .inl rfl
  | low => exact absurd hl hlow
  | unknown => exact .inr rfl

/-- No host register is read from FRAME or CUR. -/
theorem readReg_of_frame_cur (s : State) (f : Vector Byte 5) (c : Byte) (r : HostReg) :
    readReg { s with frame := f, cur := c } r = readReg s r := by
  cases r <;> rfl

/-- Settles O44: the values read 0 as they do whenever no success is reported, by O43. -/
theorem aFailedTransactionYieldsNothing : Obligations.AFailedTransactionYieldsNothing := by
  refine ⟨fun s hs _ hk => ?_, readReg_of_frame_cur⟩
  obtain ⟨-, -, -, values, -⟩ := resultRegistersAreConsistent s hs
  exact values fun ⟨_, hok⟩ => hk hok

/-! ### Where a transaction ends -/

/-- The positions from which a transaction can end in each kind (R191 to R194). -/
def EndsAt (s : State) : Kind → Prop
  | .busFault => (s.phase = .reset ∧ (s.step = .s0 ∨ s.step = .s2)) ∨ (s.phase = .presence ∧ s.step = .s1) ∨
      (s.phase = .bitRead ∧ (s.step = .s0 ∨ s.step = .s2 ∨ s.step = .s4))
  | .timeout => CountsSamples s
  | .checksumMismatch => s.phase = .checksum
  | .ok => s.phase = .decode

/-- A row that ends a transaction is a failed line command, the end of a loop, the comparison or DECODE. -/
theorem turn_endsAt (hd : s.done = false) (h : Turn s t) (ht : t.done = true) : EndsAt s t.kind := by
  cases h
  case lowFails e hb hp hk =>
    obtain hp | hp := hp
    · exact .inl ⟨hp, .inl hk⟩
    · exact .inr (.inr ⟨hp, .inl hk⟩)
  case releaseFails e hb hp hk =>
    obtain hp | hp := hp
    · exact .inl ⟨hp, .inr hk⟩
    · exact .inr (.inr ⟨hp, .inr (.inl hk)⟩)
  case sampleFails e hb hp =>
    obtain hp | ⟨hp, hk⟩ := hp
    · exact .inr (.inl hp)
    · exact .inr (.inr ⟨hp, .inr (.inr hk)⟩)
  case presenceTimeout hb hp hk hl hc => exact .inl ⟨hp, hk⟩
  case thresholdTimeout hb hp hk hm hl hc => exact .inr ⟨hp, hk, hm⟩
  case sumBad hb hp hk hc => exact hp
  case decoded hb hp hk => exact hp
  all_goals simp [hd] at ht

/-- Of what else a step can do, START and the reset input clear DONE, and the host's accesses keep it. -/
theorem step_endsAt (hd : s.done = false) (h : step s = .next t) (ht : t.done = true) : EndsAt s t.kind := by
  obtain ⟨u, hu, h⟩ := step_cases h
  have hdu : u.done = false := by obtain rfl | ⟨e, rest, -, rfl⟩ := hu <;> exact hd
  have hends : EndsAt u t.kind := by
    obtain hturn | ⟨-, rfl⟩ | ⟨r, rfl⟩ | rfl | rfl := h
    · exact turn_endsAt hdu (turn_of_engineTurn hturn) ht
    · cases ht
    · exact absurd (hdu.symm.trans ht) (by decide)
    · exact absurd (hdu.symm.trans ht) (by decide)
    · cases ht
  obtain rfl | ⟨e, rest, -, rfl⟩ := hu <;> exact hends

/-- Where a transaction can end, a command is one to the Bus Line. -/
theorem EndsAt.toBusLine_of_command {c : Instr} (h : EndsAt s k) (hc : s.command = some c) : toBusLine c = true := by
  unfold State.command at hc
  cases k with
  | busFault => obtain ⟨hp, hk | hk⟩ | ⟨hp, hk⟩ | ⟨hp, hk | hk | hk⟩ := h <;> rw [hp, hk] at hc <;> cases hc <;> rfl
  | timeout => obtain ⟨hp, hk⟩ | ⟨hp, hk, -⟩ := h <;> rw [hp, hk] at hc <;> cases hc <;> rfl
  | checksumMismatch =>
    have hp : s.phase = .checksum := h
    simp [hp] at hc
  | ok =>
    have hp : s.phase = .decode := h
    simp [hp] at hc

/-- Settles O48: the position by the kind reported, and no wait is a command to the Bus Line. -/
theorem errorKindsByRoutine : Obligations.ErrorKindsByRoutine := by
  intro s t hi hb h hdone
  have hends := step_endsAt (hi.position.done_of_busy hb) h hdone
  have hat : ∀ {k}, t.kind = k → EndsAt s k := fun hk => hk ▸ hends
  exact ⟨hat, hat, hat, hat, fun d hc => by simpa using hends.toBusLine_of_command hc⟩

/-! ### The host during a transaction -/

/-- Settles O34: START is ignored while BUSY = 1, and a read changes only what the host was given. -/
theorem theHostCannotDisturbATransaction : Obligations.TheHostCannotDisturbATransaction := by
  intro s t e rest hb hh hrun hreset h
  rw [step_of_host hh] at h
  obtain ⟨he, -⟩ | ⟨hidle, -⟩ | ⟨r, rfl⟩ | rfl | ⟨he, -⟩ := hostFetch_cases h
  · exact absurd he hrun
  · simp [hb] at hidle
  · rfl
  · rfl
  · exact absurd he hreset

theorem step_of_foreignUse {rest : List HostEvent} (h : s.host = .foreignUse :: rest) :
    step s = foreignUse { s with host := rest } := by
  rw [step_of_host h]
  rfl

/-- Settles O35: BUSY alone decides what another's use does. -/
theorem foreignUseOfTheLine : Obligations.ForeignUseOfTheLine := by
  intro s rest h
  rw [step_of_foreignUse h]
  exact ⟨fun hb => by simp [foreignUse, hb], fun hb => by simp [foreignUse, hb]⟩

end Sys2Proof.Machine
end

section
/-! Proofs of the family of 70_reset_and_hazards.md: the reset input and the idle engine (R220 to R223). -/

namespace Sys2Proof.Machine

variable {s : State} {c : Instr}

/-! ### The idle engine and START -/

theorem step_of_idle {u : State} (h : EngineMoves s u) (hb : s.busy = false) : step s = .next u := by
  obtain ⟨hbusy, -⟩ := h.same
  rw [step_of_engineMoves h]
  exact engineTurn_of_idle (hbusy.trans hb)

/-- Settles O29: an idle engine's turn changes nothing, and START positions it at RESET S0, where the command is DRIVE_LOW. -/
theorem idleUntilStartThenDriveLow : Obligations.IdleUntilStartThenDriveLow := by
  refine ⟨fun s u => step_of_idle, fun s v hb hh hv => ?_⟩
  exact ⟨_, (step_of_store_ctrl hv hh).trans (execStart_of_begin hv hb), rfl, rfl, rfl⟩

/-! ### The reset input -/

/-- An unanswered command at the position of a busy engine is outstanding (93_implementation_defined.md U9). -/
theorem outstanding_of_silent (hb : s.busy = true) (hc : s.command = some c) (hr : replyTo c s = .silent) :
    s.outstanding = true := by
  cases hl : toBusLine c <;> simpa [State.outstanding, hb, hc, hl, replyTo] using hr

theorem dropOutstanding_of_silent (hb : s.busy = true) (hc : s.command = some c) (hr : replyTo c s = .silent) :
    s.dropOutstanding = if toBusLine c then s.dropBus else s.dropDelay := by
  rw [State.dropOutstanding, if_pos (outstanding_of_silent hb hc hr), hc]

/-- The reset input takes away the answer of the port on which the command is outstanding, and no other (R223). -/
theorem hardReset_environment_of_silent (hb : s.busy = true) (hc : s.command = some c) (hr : replyTo c s = .silent) :
    (toBusLine c = true → s.hardReset.bus = s.bus.tail ∧ s.hardReset.delay = s.delay) ∧
      (toBusLine c = false → s.hardReset.delay = s.delay.tail ∧ s.hardReset.bus = s.bus) := by
  have hdrop := dropOutstanding_of_silent hb hc hr
  refine ⟨fun hl => ?_, fun hl => ?_⟩
  · simp [State.hardReset, hdrop, hl]
  · simp [State.hardReset, hdrop, hl]

/-- Settles O37: the reset input's step is `hardReset`, which discards an answer for an outstanding command only. -/
theorem resetInputCompletes : Obligations.ResetInputCompletes := by
  intro s rest hh
  refine ⟨_, step_of_resetInput hh, rfl, rfl, State.hardReset_host _, State.hardReset_trace _, fun c hb hc hr => ?_,
    fun hb => ?_⟩
  · exact hardReset_environment_of_silent (s := { s with host := rest }) hb hc hr
  · obtain ⟨hbus, hdelay, -⟩ := hardReset_environment_of_idle (s := { s with host := rest }) hb
    exact ⟨hbus, hdelay⟩

end Sys2Proof.Machine
end

section
/-! Proofs of the family of 70_reset_and_hazards.md: a transaction's commands are bounded, and it completes within that bound
(R234, R236). -/

namespace Sys2Proof.Machine

variable {s t : State}

/-! ### The bound -/

theorem StateInv.trace_length_le (hi : StateInv s) : s.trace.length ≤ transactionCommands s.cfg :=
  hi.length.trans (commandsBefore_le hi.position hi.poll)

theorem transactionCommands_of_level {c : Cfg} (hm : c.sampleMode = .level) :
    transactionCommands c = 244 + 2 * pollsAllowed c := by
  simp [transactionCommands, hm]

theorem transactionCommands_of_threshold {c : Cfg} (hm : c.sampleMode = .threshold) :
    transactionCommands c = 164 + 2 * pollsAllowed c + 80 * c.bitPollMax.toNat := by
  simp [transactionCommands, hm]

/-- Settles O51: the invariant's length part, whose greatest value is the bound of the mode. -/
theorem transactionsAreBoundedInLength : Obligations.TransactionsAreBoundedInLength := by
  intro s hs
  have hlen := (reachable_inv hs).trace_length_le
  exact ⟨fun hm => hlen.trans_eq (transactionCommands_of_level hm),
    fun hm => hlen.trans_eq (transactionCommands_of_threshold hm)⟩

/-! ### A transaction left alone -/

/-- The invariant holds, the host leaves the engine alone, and every command will be answered (R236). -/
structure LeftAlone (s : State) : Prop where
  inv : StateInv s
  host : s.host = []
  bus : busAnswers s
  delays : delaysAnswered s

/-- A row uses up at most the next answer of each port, and leaves the host's schedule alone. -/
theorem turn_environment (h : Turn s t) :
    t.host = s.host ∧ (t.bus = s.bus ∨ t.bus = s.bus.tail) ∧ (t.delay = s.delay ∨ t.delay = s.delay.tail) := by
  cases h <;> simp

theorem turn_keeps_leftAlone (hs : LeftAlone s) (h : Turn s t) : LeftAlone t := by
  obtain ⟨hhost, hbus, hdelay⟩ := turn_environment h
  refine ⟨turn_keeps_inv hs.inv h, hhost.trans hs.host, fun a ha => hs.bus a ?_, fun a ha => hs.delays a ?_⟩
  · obtain e | e := hbus
    · exact e ▸ ha
    · exact List.mem_of_mem_tail (e ▸ ha)
  · obtain e | e := hdelay
    · exact e ▸ ha
    · exact List.mem_of_mem_tail (e ▸ ha)

/-- No command stays unanswered. -/
theorem LeftAlone.replyTo_ne_silent (hs : LeftAlone s) (c : Instr) : replyTo c s ≠ .silent := by
  unfold replyTo
  split
  · unfold State.busReply
    cases hb : s.bus with
    | nil => exact nofun
    | cons a rest => exact hs.bus a (by simp [hb])
  · obtain ⟨r, hr, -⟩ := waitEnds_of_delaysAnswered hs.delays
    simp [hr]

/-! ### Its progress -/

/-- The block has reported the end of its transaction. -/
def Completed (s : State) : Prop := s.busy = false ∧ s.done = true

/-- A row of a busy engine goes on with the transaction or completes it. -/
theorem turn_busy_or_completed (hb : s.busy = true) (h : Turn s t) : t.busy = true ∨ Completed t := by
  cases h
  case lowFails | releaseFails | sampleFails | presenceTimeout | thresholdTimeout | sumBad | decoded =>
    exact .inr ⟨rfl, rfl⟩
  all_goals exact .inl (by simp [hb])

/-- The internal updates still to come, of CHECKSUM and of DECODE (43_frame_checksum_read.md R162, R167). -/
def updatesLeft (s : State) : Nat := if s.phase = .decode then 1 else 2

theorem updatesLeft_range (s : State) : 0 < updatesLeft s ∧ updatesLeft s ≤ 2 := by
  unfold updatesLeft
  split <;> omega

/-- The most steps the transaction still takes: a command for each entry its trace has room for, and the updates. -/
def stepsLeft (s : State) : Nat := transactionCommands s.cfg - s.trace.length + updatesLeft s

theorem stepsLeft_le (s : State) : stepsLeft s ≤ transactionCommands s.cfg + 2 := by
  obtain ⟨-, hupdates⟩ := updatesLeft_range s
  unfold stepsLeft
  omega

/-- A command uses up the room of its entry in the trace. -/
theorem LeftAlone.stepsLeft_lt_of_command {c : Instr} (hs : LeftAlone s) (hb : s.busy = true)
    (hc : s.command = some c) (h : step s = .next t) (ht : StateInv t) (hcfg : t.cfg = s.cfg) :
    stepsLeft t < stepsLeft s := by
  obtain ⟨-, hissues⟩ := aStepIssuesExactlyTheCommandOfItsPosition s s t (.inl ⟨hs.host, rfl⟩) hb h
  obtain ⟨hr, -⟩ | ⟨r, a, -, -, htrace⟩ := hissues c hc
  · exact absurd hr (hs.replyTo_ne_silent c)
  · have hroom := ht.trace_length_le
    have hdecode : updatesLeft s = 2 := if_neg fun hp => by simp [State.command, hp] at hc
    obtain ⟨-, hupdates⟩ := updatesLeft_range t
    have hlen : t.trace.length = s.trace.length + 1 := by simp [htrace]
    unfold stepsLeft
    rw [hcfg] at hroom ⊢
    omega

/-- A busy engine without a command stands at one of the two internal updates. -/
theorem StateInv.phase_of_no_command (hi : StateInv s) (hb : s.busy = true) (hc : s.command = none) :
    s.phase = .checksum ∨ s.phase = .decode := by
  have hk := hi.position.inRange
  unfold State.command at hc
  cases hp : s.phase with
  | idle => exact absurd hp (hi.position.busyIff.1 hb)
  | checksum => exact .inl rfl
  | decode => exact .inr rfl
  | _ => cases hs : s.step <;> simp_all [stepInRange]

/-- An internal update completes the transaction or goes on to DECODE. -/
theorem LeftAlone.progress_of_update (hs : LeftAlone s) (hb : s.busy = true)
    (hp : s.phase = .checksum ∨ s.phase = .decode) (h : step s = .next t) :
    Completed t ∨ stepsLeft t < stepsLeft s := by
  have hk : s.step = .s0 := by
    have hk := hs.inv.position.inRange
    obtain hp | hp := hp <;> simpa [stepInRange, hp] using hk
  obtain hp | hp := hp
  · have hat : EngineAt s .checksum .s0 := ⟨hb, hp, hk, hs.host, hs.delays⟩
    rw [hat.step_checksum] at h
    by_cases hc : s.csum = s.frame[4]
    · rw [execChecksumValidate_of_equal hk hc] at h
      cases h
      exact .inr (by simp [stepsLeft, updatesLeft, hp])
    · rw [execChecksumValidate_of_different hk hc] at h
      cases h
      exact .inl ⟨rfl, rfl⟩
  · have hat : EngineAt s .decode .s0 := ⟨hb, hp, hk, hs.host, hs.delays⟩
    rw [hat.step_decode, execDecode_of_s0 hk] at h
    cases h
    exact .inl ⟨rfl, rfl⟩

/-- Every step of a transaction left alone completes it or brings its end closer. -/
theorem LeftAlone.step_progress (hs : LeftAlone s) (hb : s.busy = true) :
    ∃ t, step s = .next t ∧ LeftAlone t ∧ (Completed t ∨ t.busy = true ∧ stepsLeft t < stepsLeft s) := by
  obtain ⟨t, hturn⟩ := engineTurn_is_next hs.inv hs.delays
  have hstep : step s = .next t := (step_of_no_host hs.host).trans hturn
  have hrow : Turn s t := turn_of_engineTurn hturn
  have ht := turn_keeps_leftAlone hs hrow
  have hless : Completed t ∨ stepsLeft t < stepsLeft s := by
    cases hc : s.command with
    | none => exact hs.progress_of_update hb (hs.inv.phase_of_no_command hb hc) hstep
    | some c => exact .inr (hs.stepsLeft_lt_of_command hb hc hstep ht.inv (turn_cfg hrow))
  refine ⟨t, hstep, ht, ?_⟩
  obtain hbusy | hend := turn_busy_or_completed hb hrow
  · exact hless.imp_right fun hlt => ⟨hbusy, hlt⟩
  · exact .inl hend

/-- A step for each one left, or fewer. -/
theorem LeftAlone.completes (n : Nat) (hs : LeftAlone s) (hb : s.busy = true) (hn : stepsLeft s ≤ n) :
    ∃ m t, m ≤ n ∧ Sys2Proof.core.run m s = .next t ∧ Completed t := by
  induction n generalizing s with
  | zero =>
    obtain ⟨hpos, -⟩ := updatesLeft_range s
    unfold stepsLeft at hn
    omega
  | succ n ih =>
    obtain ⟨t, hstep, ht, hend | ⟨hbt, hlt⟩⟩ := hs.step_progress hb
    · exact ⟨1, t, by omega, run_succ_of_step 0 hstep, hend⟩
    · obtain ⟨m, u, hm, hrun, hu⟩ := ih ht hbt (by omega)
      exact ⟨m + 1, u, by omega, run_of_step_of_run hstep hrun, hu⟩

/-- Settles O52, by induction on the steps left, which the room in the trace bounds. -/
theorem everyTransactionCompletes : Obligations.EveryTransactionCompletes :=
  fun s hi hb hh hbus hd => LeftAlone.completes _ ⟨hi, hh, hbus, hd⟩ hb (stepsLeft_le s)

end Sys2Proof.Machine
end

section
/-! Proofs of the family of 70_reset_and_hazards.md: the nominal duration of a LEVEL transaction (R235). -/

namespace Sys2Proof.Machine

/-! ### The length of a command -/

/-- A wait lasts as long as its unit and count say, whichever of the two commands it is. -/
theorem wordMicros_wait (d : Duration) : wordMicros (portWord (waitInstr d)) = nominalUs d := by
  obtain ⟨unit, n⟩ := d
  cases unit with
  | us =>
    have h : decodeCommand (portWord (.delayUs n)) = .ok (.delayUs n) := decodeCommand_eq_ok_iff.mpr rfl
    rw [waitInstr, wordMicros, h]
  | ms =>
    have h : decodeCommand (portWord (.delayMs n)) = .ok (.delayMs n) := decodeCommand_eq_ok_iff.mpr rfl
    rw [waitInstr, wordMicros, h]

@[simp] theorem wordMicros_driveLow : wordMicros (portWord .driveLow) = 0 := rfl
@[simp] theorem wordMicros_release : wordMicros (portWord .release) = 0 := rfl
@[simp] theorem wordMicros_sample : wordMicros (portWord .sample) = 0 := rfl
@[simp] theorem wordMicros_delayLine (d : Duration) : wordMicros (delayLine d).word = nominalUs d := wordMicros_wait d

/-! ### The length of a trace -/

@[simp] theorem nominalMicros_nil : nominalMicros [] = 0 := rfl

@[simp] theorem nominalMicros_cons (e : Exchange) (tr : List Exchange) :
    nominalMicros (e :: tr) = wordMicros e.word + nominalMicros tr := rfl

@[simp] theorem nominalMicros_append (x y : List Exchange) :
    nominalMicros (x ++ y) = nominalMicros x + nominalMicros y := by
  simp [nominalMicros]

/-- The three waits of a slot. -/
def slotMicros (c : Cfg) : Nat := nominalUs c.tSlotLow + nominalUs c.tSettle + nominalUs c.tRecovery

theorem nominalMicros_slotLines (c : Cfg) (b : Bool) : nominalMicros (slotLines c b) = slotMicros c := by
  simp [slotLines, slotMicros, Nat.add_assoc]

/-- Slots one after another, whatever bits they read. -/
theorem nominalMicros_slots (c : Cfg) (bs : List Bool) :
    nominalMicros (bs.flatMap (slotLines c)) = bs.length * slotMicros c := by
  induction bs with
  | nil => simp
  | cons b bs ih => simp [nominalMicros_slotLines, ih, Nat.succ_mul, Nat.add_comm]

theorem nominalMicros_byteLines (c : Cfg) (v : Byte) : nominalMicros (byteLines c v) = 8 * slotMicros c :=
  nominalMicros_slots c (wireBits v)

theorem nominalMicros_frameLines (c : Cfg) (f : Vector Byte 5) :
    nominalMicros (frameLines c f) = 40 * slotMicros c := by
  simp only [frameLines, nominalMicros_append, nominalMicros_byteLines]
  omega

theorem nominalMicros_highPollLines (c : Cfg) (k : Nat) :
    nominalMicros (highPollLines c k) = k * nominalUs c.tPresencePoll := by
  induction k with
  | zero => simp [highPollLines]
  | succ k ih => simp [highPollLines_succ, ih, Nat.succ_mul]

theorem nominalMicros_presenceLines (c : Cfg) (k : Nat) :
    nominalMicros (presenceLines c k) =
      if c.presenceCheck then nominalUs c.tPresenceDelay + k * nominalUs c.tPresencePoll else 0 := by
  cases hc : c.presenceCheck with
  | true => simp [presenceLines_of_check hc, nominalMicros_highPollLines]
  | false => simp [presenceLines, hc]

theorem nominalMicros_beforeFrameLines (c : Cfg) (k : Nat) :
    nominalMicros (beforeFrameLines c k) =
      nominalUs c.tResetLow + nominalMicros (presenceLines c k) + nominalUs c.tPostReset := by
  simp [beforeFrameLines, Nat.add_assoc]

theorem nominalMicros_transactionLines (c : Cfg) (k : Nat) (f : Vector Byte 5) :
    nominalMicros (beforeFrameLines c k ++ frameLines c f) =
      nominalUs c.tResetLow +
      (if c.presenceCheck then nominalUs c.tPresenceDelay + k * nominalUs c.tPresencePoll else 0) +
      nominalUs c.tPostReset + 40 * (nominalUs c.tSlotLow + nominalUs c.tSettle + nominalUs c.tRecovery) := by
  rw [nominalMicros_append, nominalMicros_beforeFrameLines, nominalMicros_presenceLines, nominalMicros_frameLines,
    slotMicros]

/-- Settles O59: the waits of the lines are summed, and the run's trace is those lines by O58. -/
theorem nominalDurationOfALevelTransaction : Obligations.NominalDurationOfALevelTransaction := by
  refine ⟨nominalMicros_transactionLines, fun s v k f rest hidle hm hv hh hd hk hb => ?_⟩
  obtain ⟨t, hrun, htrace, -, -, -, hdone, -, -, hgood, -⟩ :=
    aWholeLevelTransactionReportsItsFrame s v k f rest hidle hm hv hh hd hk hb
  refine ⟨t, hrun, hdone, fun hc => (hgood hc).1, ?_⟩
  rw [htrace]
  exact nominalMicros_transactionLines s.cfg k f

end Sys2Proof.Machine
end
